-- ==== Sys2Proof/Word.lean ====
section
/-! DEFINITION. The word types of the CHIP-8 CORE (spec/00_scope.md R4, R6): widths only, no operation. -/

namespace Sys2Proof

/-- A byte of memory, a V register, DT or ST (XLEN, R4). -/
abbrev Byte := BitVec 8

/-- An instruction word, I, PC or a stack entry (ILEN, R4). -/
abbrev Word := BitVec 16

/-- The index of a V register: the fields `x` and `y` (30_encoding.md R91). -/
abbrev RegIx := BitVec 4

/-- The 12-bit address immediate `nnn` (R91). -/
abbrev Addr12 := BitVec 12

end Sys2Proof
end

