-- ==== Sys2Proof/Syntax.lean ====
section
/-! DEFINITION. The instructions: one constructor per row of spec/opcode_table.json, in the table's order
(30_encoding.md R94). -/

namespace Sys2Proof

/-- An instruction with its fields (R91, R92). `x` and `y` name V registers, `kk`, `n`, `nnn` are immediates. -/
inductive Instr where
  /-- 00E0 `CLS` (R180) -/
  | cls
  /-- 00EE `RET` (R131) -/
  | ret
  /-- 0NNN `SYS nnn`, decoded but illegal (R130) -/
  | sys (nnn : Addr12)
  /-- 1NNN `JP nnn` (R132) -/
  | jp (nnn : Addr12)
  /-- 2NNN `CALL nnn` (R133) -/
  | call (nnn : Addr12)
  /-- 3XKK `SE Vx, kk` (R134) -/
  | seKk (x : RegIx) (kk : Byte)
  /-- 4XKK `SNE Vx, kk` (R135) -/
  | sneKk (x : RegIx) (kk : Byte)
  /-- 5XY0 `SE Vx, Vy` (R136) -/
  | seVy (x y : RegIx)
  /-- 6XKK `LD Vx, kk` (R150) -/
  | ldKk (x : RegIx) (kk : Byte)
  /-- 7XKK `ADD Vx, kk` (R151) -/
  | addKk (x : RegIx) (kk : Byte)
  /-- 8XY0 `LD Vx, Vy` (R152) -/
  | ldVy (x y : RegIx)
  /-- 8XY1 `OR Vx, Vy` (R153) -/
  | orVy (x y : RegIx)
  /-- 8XY2 `AND Vx, Vy` (R154) -/
  | andVy (x y : RegIx)
  /-- 8XY3 `XOR Vx, Vy` (R155) -/
  | xorVy (x y : RegIx)
  /-- 8XY4 `ADD Vx, Vy` (R156) -/
  | addVy (x y : RegIx)
  /-- 8XY5 `SUB Vx, Vy` (R157) -/
  | subVy (x y : RegIx)
  /-- 8XY6 `SHR Vx, Vy` (R158) -/
  | shr (x y : RegIx)
  /-- 8XY7 `SUBN Vx, Vy` (R159) -/
  | subnVy (x y : RegIx)
  /-- 8XYE `SHL Vx, Vy` (R160) -/
  | shl (x y : RegIx)
  /-- 9XY0 `SNE Vx, Vy` (R137) -/
  | sneVy (x y : RegIx)
  /-- ANNN `LD I, nnn` (R170) -/
  | ldI (nnn : Addr12)
  /-- BNNN `JP V0, nnn` (R138) -/
  | jpV0 (nnn : Addr12)
  /-- CXKK `RND Vx, kk` (R161) -/
  | rnd (x : RegIx) (kk : Byte)
  /-- DXYN `DRW Vx, Vy, n` (R181) -/
  | drw (x y : RegIx) (n : BitVec 4)
  /-- EX9E `SKP Vx` (R203) -/
  | skp (x : RegIx)
  /-- EXA1 `SKNP Vx` (R204) -/
  | sknp (x : RegIx)
  /-- FX07 `LD Vx, DT` (R200) -/
  | ldVxDt (x : RegIx)
  /-- FX0A `LD Vx, K` (R205) -/
  | ldVxK (x : RegIx)
  /-- FX15 `LD DT, Vx` (R201) -/
  | ldDt (x : RegIx)
  /-- FX18 `LD ST, Vx` (R202) -/
  | ldSt (x : RegIx)
  /-- FX1E `ADD I, Vx` (R171) -/
  | addI (x : RegIx)
  /-- FX29 `LD F, Vx` (R172) -/
  | ldF (x : RegIx)
  /-- FX33 `LD B, Vx` (R173) -/
  | ldB (x : RegIx)
  /-- FX55 `LD [I], Vx` (R174) -/
  | storeRegs (x : RegIx)
  /-- FX65 `LD Vx, [I]` (R175) -/
  | loadRegs (x : RegIx)
deriving DecidableEq, Repr

end Sys2Proof
end

