-- ==== Sys2Proof/Decode.lean ====
section
/-! DEFINITION. Decoding an instruction word and encoding an instruction (spec/30_encoding.md R90 to R96). -/

namespace Sys2Proof

/-- Why the decoder refuses. -/
inductive DecodeReject where
  /-- The word selects no row of the opcode map (R95): the CPU raises `IllegalInstruction` with it. -/
  | unrecognised (w : Word)
  /-- Fewer than the two bytes every instruction has (R90). -/
  | truncated
deriving DecidableEq, Repr

/-- The fields of an instruction word (R91). -/
def fieldOp (w : Word) : BitVec 4 := w.extractLsb' 12 4
/-- `x = w[11:8]`. -/
def fieldX (w : Word) : RegIx := w.extractLsb' 8 4
/-- `y = w[7:4]`. -/
def fieldY (w : Word) : RegIx := w.extractLsb' 4 4
/-- `n = w[3:0]`. -/
def fieldN (w : Word) : BitVec 4 := w.extractLsb' 0 4
/-- `kk = w[7:0]`. -/
def fieldKK (w : Word) : Byte := w.extractLsb' 0 8
/-- `nnn = w[11:0]`. -/
def fieldNNN (w : Word) : Addr12 := w.extractLsb' 0 12

/-- Family 0: 00E0 and 00EE take precedence over 0NNN (R94). -/
def decodeFamily0 (w : Word) : Except DecodeReject Instr :=
  if w = 0x00E0#16 then .ok .cls
  else if w = 0x00EE#16 then .ok .ret
  else .ok (.sys (fieldNNN w))

/-- Families 5 and 9: the low nibble must be 0 (R95). -/
def decodeLowNibble0 (i : Instr) (w : Word) : Except DecodeReject Instr :=
  if fieldN w = 0x0#4 then .ok i else .error (.unrecognised w)

/-- Family 8: the low nibble is the sub-opcode (R94 rows 11 to 19). -/
def decodeFamily8 (w : Word) : Except DecodeReject Instr :=
  if fieldN w = 0x0#4 then .ok (.ldVy (fieldX w) (fieldY w))
  else if fieldN w = 0x1#4 then .ok (.orVy (fieldX w) (fieldY w))
  else if fieldN w = 0x2#4 then .ok (.andVy (fieldX w) (fieldY w))
  else if fieldN w = 0x3#4 then .ok (.xorVy (fieldX w) (fieldY w))
  else if fieldN w = 0x4#4 then .ok (.addVy (fieldX w) (fieldY w))
  else if fieldN w = 0x5#4 then .ok (.subVy (fieldX w) (fieldY w))
  else if fieldN w = 0x6#4 then .ok (.shr (fieldX w) (fieldY w))
  else if fieldN w = 0x7#4 then .ok (.subnVy (fieldX w) (fieldY w))
  else if fieldN w = 0xE#4 then .ok (.shl (fieldX w) (fieldY w))
  else .error (.unrecognised w)

/-- Family E (R94 rows 25, 26). -/
def decodeFamilyE (w : Word) : Except DecodeReject Instr :=
  if fieldKK w = 0x9E#8 then .ok (.skp (fieldX w))
  else if fieldKK w = 0xA1#8 then .ok (.sknp (fieldX w))
  else .error (.unrecognised w)

/-- Family F (R94 rows 27 to 35). -/
def decodeFamilyF (w : Word) : Except DecodeReject Instr :=
  if fieldKK w = 0x07#8 then .ok (.ldVxDt (fieldX w))
  else if fieldKK w = 0x0A#8 then .ok (.ldVxK (fieldX w))
  else if fieldKK w = 0x15#8 then .ok (.ldDt (fieldX w))
  else if fieldKK w = 0x18#8 then .ok (.ldSt (fieldX w))
  else if fieldKK w = 0x1E#8 then .ok (.addI (fieldX w))
  else if fieldKK w = 0x29#8 then .ok (.ldF (fieldX w))
  else if fieldKK w = 0x33#8 then .ok (.ldB (fieldX w))
  else if fieldKK w = 0x55#8 then .ok (.storeRegs (fieldX w))
  else if fieldKK w = 0x65#8 then .ok (.loadRegs (fieldX w))
  else .error (.unrecognised w)

/-- Decoding an instruction word (R94, R113): by family, then by the sub-opcode of the format. It reads nothing but the
word. -/
def decodeWord (w : Word) : Except DecodeReject Instr :=
  if fieldOp w = 0x0#4 then decodeFamily0 w
  else if fieldOp w = 0x1#4 then .ok (.jp (fieldNNN w))
  else if fieldOp w = 0x2#4 then .ok (.call (fieldNNN w))
  else if fieldOp w = 0x3#4 then .ok (.seKk (fieldX w) (fieldKK w))
  else if fieldOp w = 0x4#4 then .ok (.sneKk (fieldX w) (fieldKK w))
  else if fieldOp w = 0x5#4 then decodeLowNibble0 (.seVy (fieldX w) (fieldY w)) w
  else if fieldOp w = 0x6#4 then .ok (.ldKk (fieldX w) (fieldKK w))
  else if fieldOp w = 0x7#4 then .ok (.addKk (fieldX w) (fieldKK w))
  else if fieldOp w = 0x8#4 then decodeFamily8 w
  else if fieldOp w = 0x9#4 then decodeLowNibble0 (.sneVy (fieldX w) (fieldY w)) w
  else if fieldOp w = 0xA#4 then .ok (.ldI (fieldNNN w))
  else if fieldOp w = 0xB#4 then .ok (.jpV0 (fieldNNN w))
  else if fieldOp w = 0xC#4 then .ok (.rnd (fieldX w) (fieldKK w))
  else if fieldOp w = 0xD#4 then .ok (.drw (fieldX w) (fieldY w) (fieldN w))
  else if fieldOp w = 0xE#4 then decodeFamilyE w
  else decodeFamilyF w  -- the one family left, 0xF

/-- The two bytes of a word as memory holds them: high byte first (20_memory.md R68). -/
def bytesOfWord (w : Word) : List Byte := [w.extractLsb' 8 8, w.extractLsb' 0 8]

/-- Decoding a byte stream: the first two bytes are the word, high byte first (R68, R90); the rest is handed back. -/
def decodeBytes : List Byte → Except DecodeReject (Instr × List Byte)
  | hi :: lo :: rest =>
    match decodeWord (hi ++ lo) with
    | .ok i => .ok (i, rest)
    | .error r => .error r
  | [_] => .error .truncated
  | [] => .error .truncated

/-- The encoding of each instruction, from the bit patterns of R94 and R92. -/
def encode : Instr → Word
  | .cls => 0x00E0#16
  | .ret => 0x00EE#16
  | .sys nnn => 0x0#4 ++ nnn
  | .jp nnn => 0x1#4 ++ nnn
  | .call nnn => 0x2#4 ++ nnn
  | .seKk x kk => 0x3#4 ++ x ++ kk
  | .sneKk x kk => 0x4#4 ++ x ++ kk
  | .seVy x y => 0x5#4 ++ x ++ y ++ 0x0#4
  | .ldKk x kk => 0x6#4 ++ x ++ kk
  | .addKk x kk => 0x7#4 ++ x ++ kk
  | .ldVy x y => 0x8#4 ++ x ++ y ++ 0x0#4
  | .orVy x y => 0x8#4 ++ x ++ y ++ 0x1#4
  | .andVy x y => 0x8#4 ++ x ++ y ++ 0x2#4
  | .xorVy x y => 0x8#4 ++ x ++ y ++ 0x3#4
  | .addVy x y => 0x8#4 ++ x ++ y ++ 0x4#4
  | .subVy x y => 0x8#4 ++ x ++ y ++ 0x5#4
  | .shr x y => 0x8#4 ++ x ++ y ++ 0x6#4
  | .subnVy x y => 0x8#4 ++ x ++ y ++ 0x7#4
  | .shl x y => 0x8#4 ++ x ++ y ++ 0xE#4
  | .sneVy x y => 0x9#4 ++ x ++ y ++ 0x0#4
  | .ldI nnn => 0xA#4 ++ nnn
  | .jpV0 nnn => 0xB#4 ++ nnn
  | .rnd x kk => 0xC#4 ++ x ++ kk
  | .drw x y n => 0xD#4 ++ x ++ y ++ n
  | .skp x => 0xE#4 ++ x ++ 0x9E#8
  | .sknp x => 0xE#4 ++ x ++ 0xA1#8
  | .ldVxDt x => 0xF#4 ++ x ++ 0x07#8
  | .ldVxK x => 0xF#4 ++ x ++ 0x0A#8
  | .ldDt x => 0xF#4 ++ x ++ 0x15#8
  | .ldSt x => 0xF#4 ++ x ++ 0x18#8
  | .addI x => 0xF#4 ++ x ++ 0x1E#8
  | .ldF x => 0xF#4 ++ x ++ 0x29#8
  | .ldB x => 0xF#4 ++ x ++ 0x33#8
  | .storeRegs x => 0xF#4 ++ x ++ 0x55#8
  | .loadRegs x => 0xF#4 ++ x ++ 0x65#8

/-- The mask and the match of an instruction's row of the opcode map (R94). -/
def opcodeRow : Instr → Word × Word
  | .cls => (0xFFFF#16, 0x00E0#16)
  | .ret => (0xFFFF#16, 0x00EE#16)
  | .sys _ => (0xF000#16, 0x0000#16)
  | .jp _ => (0xF000#16, 0x1000#16)
  | .call _ => (0xF000#16, 0x2000#16)
  | .seKk _ _ => (0xF000#16, 0x3000#16)
  | .sneKk _ _ => (0xF000#16, 0x4000#16)
  | .seVy _ _ => (0xF00F#16, 0x5000#16)
  | .ldKk _ _ => (0xF000#16, 0x6000#16)
  | .addKk _ _ => (0xF000#16, 0x7000#16)
  | .ldVy _ _ => (0xF00F#16, 0x8000#16)
  | .orVy _ _ => (0xF00F#16, 0x8001#16)
  | .andVy _ _ => (0xF00F#16, 0x8002#16)
  | .xorVy _ _ => (0xF00F#16, 0x8003#16)
  | .addVy _ _ => (0xF00F#16, 0x8004#16)
  | .subVy _ _ => (0xF00F#16, 0x8005#16)
  | .shr _ _ => (0xF00F#16, 0x8006#16)
  | .subnVy _ _ => (0xF00F#16, 0x8007#16)
  | .shl _ _ => (0xF00F#16, 0x800E#16)
  | .sneVy _ _ => (0xF00F#16, 0x9000#16)
  | .ldI _ => (0xF000#16, 0xA000#16)
  | .jpV0 _ => (0xF000#16, 0xB000#16)
  | .rnd _ _ => (0xF000#16, 0xC000#16)
  | .drw _ _ _ => (0xF000#16, 0xD000#16)
  | .skp _ => (0xF0FF#16, 0xE09E#16)
  | .sknp _ => (0xF0FF#16, 0xE0A1#16)
  | .ldVxDt _ => (0xF0FF#16, 0xF007#16)
  | .ldVxK _ => (0xF0FF#16, 0xF00A#16)
  | .ldDt _ => (0xF0FF#16, 0xF015#16)
  | .ldSt _ => (0xF0FF#16, 0xF018#16)
  | .addI _ => (0xF0FF#16, 0xF01E#16)
  | .ldF _ => (0xF0FF#16, 0xF029#16)
  | .ldB _ => (0xF0FF#16, 0xF033#16)
  | .storeRegs _ => (0xF0FF#16, 0xF055#16)
  | .loadRegs _ => (0xF0FF#16, 0xF065#16)

/-- The word the opcode table numbers `w`, of `nbits` bits: every bit above them is 0. -/
def tableWord (nbits w : Nat) : Word := BitVec.ofNat 16 (w % 2 ^ nbits)

/-- What the decoder reads from a word of the opcode table, laid out in bytes as the hardware stores it. -/
def decodeTableWord (nbits w : Nat) : Option Instr :=
  match decodeBytes (bytesOfWord (tableWord nbits w)) with
  | .ok (i, _) => some i
  | .error _ => none

end Sys2Proof
end

