-- ==== Sys2Proof/Config.lean ====
section
/-! DEFINITION. The free values of the model: what the outside of the CORE does, under no law. None of them has a
body, so nothing can be proved of their values. Each is indexed by `State.eventNo`, the number of the step event
(notes/assumptions/2.md). The straps CFG are no free values: they are plain data in `State.cfg`
(notes/assumptions/1.md). -/

namespace Sys2Proof

/-- How many `tick` events fall before this step event: SEQ's interleaving is open (60_exceptions.md R261, U10;
notes/assumptions/5.md). -/
opaque Config.ticksBefore : Nat → Nat

/-- What the one read of the KEYS port in this step event answers (10_state.md R32, U11; notes/assumptions/4.md). -/
opaque Config.keys : Nat → BitVec 16

/-- The byte a draw from the random source gives in this step event (10_state.md R33, U4; notes/assumptions/3.md). -/
opaque Config.rnd : Nat → Byte

/-- Whether a 00E0 or DXYN that changed no pixel reports `fb_changed` (40_step_cycle.md R115, U8;
notes/assumptions/6.md). -/
opaque Config.fbHint : Nat → Bool

end Sys2Proof
end

