-- ==== Sys2Proof/Machine/Font.lean ====
section
/-! DEFINITION. What memory holds after reset: the font, and 0 elsewhere (spec/20_memory.md R72, 10_state.md R38). -/

namespace Sys2Proof.Machine

/-- `FONT_BASE` (R4, R72). -/
def fontBase : Nat := 0x050

/-- The font of R72: sixteen glyphs of five rows. -/
def fontBytes : List Byte :=
  [0xF0#8, 0x90#8, 0x90#8, 0x90#8, 0xF0#8] ++ [0x20#8, 0x60#8, 0x20#8, 0x20#8, 0x70#8] ++
  [0xF0#8, 0x10#8, 0xF0#8, 0x80#8, 0xF0#8] ++ [0xF0#8, 0x10#8, 0xF0#8, 0x10#8, 0xF0#8] ++
  [0x90#8, 0x90#8, 0xF0#8, 0x10#8, 0x10#8] ++ [0xF0#8, 0x80#8, 0xF0#8, 0x10#8, 0xF0#8] ++
  [0xF0#8, 0x80#8, 0xF0#8, 0x90#8, 0xF0#8] ++ [0xF0#8, 0x10#8, 0x20#8, 0x40#8, 0x40#8] ++
  [0xF0#8, 0x90#8, 0xF0#8, 0x90#8, 0xF0#8] ++ [0xF0#8, 0x90#8, 0xF0#8, 0x10#8, 0xF0#8] ++
  [0xF0#8, 0x90#8, 0xF0#8, 0x90#8, 0x90#8] ++ [0xE0#8, 0x90#8, 0xE0#8, 0x90#8, 0xE0#8] ++
  [0xF0#8, 0x80#8, 0x80#8, 0x80#8, 0xF0#8] ++ [0xE0#8, 0x90#8, 0x90#8, 0x90#8, 0xE0#8] ++
  [0xF0#8, 0x80#8, 0xF0#8, 0x80#8, 0xF0#8] ++ [0xF0#8, 0x80#8, 0xF0#8, 0x80#8, 0x80#8]

/-- What an address that memory does not list reads as: its value after reset (R38), the font at 0x050 to 0x09F and 0
elsewhere. -/
def unlisted (a : Nat) : Byte :=
  if fontBase ≤ a then fontBytes.getD (a - fontBase) 0x00#8 else 0x00#8

end Sys2Proof.Machine
end

