-- ==== Sys2Proof/Machine/Straps.lean ====
section
/-! DEFINITION. The configuration CFG (spec/00_scope.md R4, R5; 10_state.md R34). -/

namespace Sys2Proof.Machine

/-- `CFG.addr_mode`: the addressing-mode selector of the memory controller (20_memory.md R63). -/
inductive AddrMode where
  | wraparound
  | strictBounds
deriving DecidableEq, Repr

/-- `CFG.err_policy`: what a recoverable error does (60_exceptions.md R248). -/
inductive ErrPolicy where
  | failFast
  | permissive
deriving DecidableEq, Repr

/-- `CFG.shift_src`: which register 8XY6 and 8XYE shift (42_load_alu.md R158). -/
inductive ShiftSrc where
  | vx
  | vy
deriving DecidableEq, Repr

/-- The straps, read once at reset and never changed by an instruction or a tick (R5). They are part of the state so
that every statement about every state is one about every configuration (notes/assumptions/1.md). -/
structure Cfg where
  addrMode : AddrMode
  errPolicy : ErrPolicy
  /-- step events per second, 100 to 2000 (60_exceptions.md R262) -/
  cpuHz : Nat
  /-- tick events per second, positive (60_exceptions.md R257) -/
  timerHz : Nat
  /-- whether every write to I is reduced modulo 4096 (43_index_memory.md R176) -/
  iMask12 : Bool
  shiftSrc : ShiftSrc
  /-- whether FX55 and FX65 advance I (R174, R175) -/
  ldstInc : Bool
deriving DecidableEq, Repr

/-- A configuration of this hardware: the ranges of R4 (60_exceptions.md R262, U16). -/
def Cfg.ok (c : Cfg) : Bool :=
  decide (100 ≤ c.cpuHz) && decide (c.cpuHz ≤ 2000) && decide (0 < c.timerHz)

/-- CFG0 of R4, the configuration `State.reset` takes. DESIGN CHOICE (notes/assumptions/1.md): the spec gives the
straps no default, and uses CFG0 for its own vectors. -/
def cfg0 : Cfg :=
  { addrMode := .wraparound, errPolicy := .failFast, cpuHz := 500, timerHz := 60,
    iMask12 := false, shiftSrc := .vx, ldstInc := false }

end Sys2Proof.Machine
end

