-- ==== Sys2Proof/Machine/State.lean ====
section
/-! DEFINITION. The state of the machine as plain data (spec/10_state.md), its errors (60_exceptions.md R240, R246),
the outcomes of a step (40_step_cycle.md R114), and the state after reset (R38). -/

namespace Sys2Proof.Machine

/-- The sub-operation tag an error carries (60_exceptions.md R246). -/
inductive SubOp where
  | fetch
  | decode
  | memRead
  | memWrite
  | push
  | pop
deriving DecidableEq, Repr

/-- An error a step can raise, with its information (R240, codes 1 to 4). -/
inductive ExecError where
  /-- an illegal word, with the word (R241) -/
  | illegalInstruction (w : Word)
  /-- an address of 4096 or more under StrictBounds, with the access's tag and the requested address (R242) -/
  | outOfBounds (tag : SubOp) (a : Nat)
  /-- 2NNN with a full stack (R243) -/
  | stackOverflow
  /-- 00EE with an empty stack (R244) -/
  | stackUnderflow
deriving DecidableEq, Repr

/-- The side-effect record of a completed step (40_step_cycle.md R115, R116). -/
structure SideEffects where
  fbChanged : Bool
  soundActive : Bool
deriving DecidableEq, Repr

/-- The outcome of a step event (R114). -/
inductive StepOutcome where
  | ok (fx : SideEffects)
  | waitingForKey
  | err (e : ExecError)
  /-- the CPU was halted before the step: the recorded error -/
  | halted (e : Option ExecError)
deriving DecidableEq, Repr

/-- What the outside does at one step event: how many ticks fall before it, what its read of KEYS answers, what its
draw of the random source gives, and the open repaint hint. The model's own (notes/assumptions/2.md). -/
structure Stimulus where
  ticks : Nat
  keys : BitVec 16
  rnd : Byte
  fbHint : Bool
deriving DecidableEq, Repr

/-- Memory: the cells that differ from what reset left, addresses strictly rising (R30; `Memory.wf` of Ops). -/
abbrev Memory := List Host.Cell

/-- The framebuffer: 32 rows of 64 pixels, row 0 and column 0 first (R31). -/
abbrev Grid := Vector (Vector Bool 64) 32

/-- Why the machine stops. No step ends in one: the errors of a step are states the spec describes (R249, R251). -/
inductive Fault where
  /-- Raised by the host operation `loadRom` for an image of more than 3584 bytes, with its length; memory is unchanged
  and execution is never reached (60_exceptions.md R245, code 5). Safe. -/
  | romTooLarge (len : Nat)
deriving DecidableEq, Repr

/-- What the model gives no meaning to. -/
inductive Refusal where
  /-- An instruction the dispatcher has no meaning for; no arm answers it now. Safe. -/
  | notModelled (mnemonic : String)
  /-- Raised by `loadRom` after a load or a step: the spec describes one load, after reset and before the first step
  (70_reset_and_hazards.md R282, D34, U17). Safe. -/
  | loadOutsideBoot
  /-- Raised by `boot` and `advance` for straps outside the ranges of 00_scope.md R4 (60_exceptions.md R262, U16).
  Safe. -/
  | badConfiguration
  /-- Raised by `advance` for a negative elapsed time, or an order that is no interleaving of the ticks and steps the
  time pays for (60_exceptions.md R260, R261). Safe. -/
  | notAnAdvance
deriving DecidableEq, Repr

/-- The state. The last two fields are the model's own; every other field is the spec's. -/
structure State where
  /-- V0 to VF; VF is also the flag register (R20, R21) -/
  v : Vector Byte 16
  /-- the index register I (R23) -/
  i : Word
  /-- the program counter (R24, R25) -/
  pc : Word
  /-- how many stack entries are in use, 0 to 16 (R26) -/
  sp : Fin 17
  /-- the return stack (R26) -/
  stk : Vector Word 16
  /-- the delay timer (R28) -/
  dt : Byte
  /-- the sound timer (R28) -/
  st : Byte
  /-- memory, as the cells that differ from reset (R30) -/
  mem : Memory
  /-- the framebuffer (R31) -/
  fb : Grid
  /-- the CPU is halted by a fatal error (R35) -/
  halted : Bool
  /-- the error that halted it (R35) -/
  err : Option ExecError
  /-- the log of suppressed errors, oldest first (60_exceptions.md R251, R263); not empty marks a faulted run (U5) -/
  errLog : List ExecError
  /-- the outcome of the last step event, an output (R40, 40_step_cycle.md R114) -/
  outcome : Option StepOutcome
  /-- SEQ's elapsed time towards the next tick (R36) -/
  accT : Rat
  /-- SEQ's elapsed time towards the next step (R36) -/
  accC : Rat
  /-- the straps (R34) -/
  cfg : Cfg
  /-- the model's own: what the outside does at the coming step events; the free values apply past its end -/
  stimuli : List Stimulus
  /-- the model's own: the number of the next step event, the index of the free values -/
  eventNo : Nat
deriving DecidableEq, Repr

/-- `reset(CFG)` (70_reset_and_hazards.md R280): every piece of state at its value of 10_state.md R38. DESIGN CHOICE for
what R38 does not name: no suppressed error is logged (notes/assumptions/8.md), there is no outcome yet (7.md), nothing is
given of the inputs and no step event has been (2.md). -/
def State.resetWith (cfg : Cfg) : State :=
  { v := Vector.replicate 16 0x00#8, i := 0x0000#16, pc := 0x0200#16, sp := 0, stk := Vector.replicate 16 0x0000#16,
    dt := 0x00#8, st := 0x00#8, mem := [], fb := Vector.replicate 32 (Vector.replicate 64 false),
    halted := false, err := none, errLog := [], outcome := none, accT := 0, accC := 0, cfg := cfg,
    stimuli := [], eventNo := 0 }

/-- The machine right after reset, with the straps CFG0 (notes/assumptions/1.md, 13.md). -/
def State.reset : State := State.resetWith cfg0

end Sys2Proof.Machine
end

