-- ==== Sys2Proof/Machine/Ops.lean ====
section
/-! DEFINITION. The named operations over the state: addresses and memory (spec/20_memory.md), registers, the stack
(10_state.md R26), the inputs, the ends of a step (40_step_cycle.md R114 to R118), what happens on an error
(60_exceptions.md R248 to R251), and the timers (R256). -/

namespace Sys2Proof.Machine

/-- What a meaning answers. -/
abbrev Out := Host.Outcome State Fault Refusal

/-- The next state changed by `f`; a fault or a refusal as it is. -/
def mapNext (f : State → State) : Out → Out
  | .next s => .next (f s)
  | .fault r => .fault r
  | .refused r => .refused r

/-! ### Errors -/

/-- The class of an error (R240, R248). -/
inductive ErrorClass where
  | fatal
  | recoverable
deriving DecidableEq, Repr

/-- The code of R240. -/
def ExecError.code : ExecError → Nat
  | .illegalInstruction _ => 1
  | .outOfBounds _ _ => 2
  | .stackOverflow => 3
  | .stackUnderflow => 4

/-- The sub-operation tag an error carries (R240, R246). -/
def ExecError.tag : ExecError → SubOp
  | .illegalInstruction _ => .decode
  | .outOfBounds t _ => t
  | .stackOverflow => .push
  | .stackUnderflow => .pop

/-- The class column of R240. -/
def ExecError.errorClass : ExecError → ErrorClass
  | .illegalInstruction _ => .fatal
  | .outOfBounds _ _ => .recoverable
  | .stackOverflow => .recoverable
  | .stackUnderflow => .recoverable

/-- The code of the load-time error (R240). -/
def Fault.code : Fault → Nat
  | .romTooLarge _ => 5

/-- Whether an error halts the CPU: a fatal one always, a recoverable one under FailFast (R248). -/
def ExecError.halts (e : ExecError) (p : ErrPolicy) : Bool :=
  decide (e.errorClass = .fatal) || decide (p = .failFast)

/-! ### Addresses and memory -/

/-- `Addr(op, a)` (R63): the physical address of the requested address `a`, a natural number. -/
def addr (mode : AddrMode) (tag : SubOp) (a : Nat) : Except ExecError Nat :=
  match mode with
  | .wraparound => .ok (a % 4096)
  | .strictBounds => if 4096 ≤ a then .error (.outOfBounds tag a) else .ok a

/-- `Addr` of the `n` addresses from `a` up, in ascending order; the first that fails gives the error (R118, R119). -/
def addrs (mode : AddrMode) (tag : SubOp) : Nat → Nat → Except ExecError (List Nat)
  | _, 0 => .ok []
  | a, n + 1 =>
    match addr mode tag a with
    | .error e => .error e
    | .ok p =>
      match addrs mode tag (a + 1) n with
      | .error e => .error e
      | .ok ps => .ok (p :: ps)

/-- `MEM[a]` for a physical address. -/
def Memory.read : Memory → Nat → Byte
  | [], a => unlisted a
  | (b, w) :: m, a => if a = b then w else Memory.read m a

/-- The memory with address `a` not listed. -/
def Memory.unlist : Memory → Nat → Memory
  | [], _ => []
  | (b, w) :: m, a => if a = b then Memory.unlist m a else (b, w) :: Memory.unlist m a

/-- The memory with address `a` listed with the byte `x`, in the rising order. -/
def Memory.enlist : Memory → Nat → Byte → Memory
  | [], a, x => [(a, x)]
  | (b, w) :: m, a, x =>
    if a < b then (a, x) :: (b, w) :: m
    else if a = b then (a, x) :: m
    else (b, w) :: Memory.enlist m a x

/-- `MEM[a] <- x` for a physical address (R66), keeping the canonical form: a byte equal to what reset leaves there is
not listed. -/
def Memory.write (m : Memory) (a : Nat) (x : Byte) : Memory := if x = unlisted a then m.unlist a else m.enlist a x

/-- The cells rise strictly from `lo`, lie in the 4096 bytes, and none equals what an unlisted address reads as. -/
def Memory.wfFrom : Nat → Memory → Bool
  | _, [] => true
  | lo, (a, x) :: m => decide (lo ≤ a) && decide (a < 4096) && decide (x ≠ unlisted a) && Memory.wfFrom (a + 1) m

/-- The canonical form of a memory. -/
def Memory.wf (m : Memory) : Bool := Memory.wfFrom 0 m

/-- The bytes written one after another, each at its own address. -/
def Memory.writeAll : Memory → List (Nat × Byte) → Memory
  | m, [] => m
  | m, (a, x) :: ws => Memory.writeAll (m.write a x) ws

/-- `MEM[a]` of a state. -/
def State.readByte (s : State) (a : Nat) : Byte := s.mem.read a

/-- The bytes at the `n` addresses from `a` up: all addresses are checked first (R65, R118). -/
def State.loadBytes (s : State) (a n : Nat) : Except ExecError (List Byte) :=
  match addrs s.cfg.addrMode .memRead a n with
  | .error e => .error e
  | .ok ps => .ok (ps.map s.readByte)

/-- The bytes `xs` written from address `a` up: all addresses are checked first (R66, R118). -/
def State.storeBytes (s : State) (a : Nat) (xs : List Byte) : Except ExecError State :=
  match addrs s.cfg.addrMode .memWrite a xs.length with
  | .error e => .error e
  | .ok ps => .ok { s with mem := s.mem.writeAll (ps.zip xs) }

/-- `MemRead(PC, 2)` (R67, R111): each byte goes through `Addr` on its own, high byte first. -/
def State.fetch (s : State) : Except ExecError Word :=
  match addr s.cfg.addrMode .fetch s.pc.toNat with
  | .error e => .error e
  | .ok p =>
    match addr s.cfg.addrMode .fetch (s.pc.toNat + 1) with
    | .error e => .error e
    | .ok q => .ok (s.readByte p ++ s.readByte q)

/-! ### Registers -/

/-- `V[x]`. -/
def State.readV (s : State) (x : RegIx) : Byte := s.v[x.toNat]'(x.isLt)

/-- `V[x] <- b`. -/
def State.writeV (s : State) (x : RegIx) (b : Byte) : State := { s with v := s.v.set x.toNat b x.isLt }

/-- `V[15]`, the flag register (R21). -/
def vf : RegIx := 0xF#4

/-- A Boolean as the byte a flag is written as (R21). -/
def flagByte (b : Bool) : Byte := if b then 0x01#8 else 0x00#8

/-- A result to `V[x]` and then a flag to VF, last (R21, R163). -/
def State.writeResult (s : State) (x : RegIx) (r : Byte) (flag : Bool) : State :=
  (s.writeV x r).writeV vf (flagByte flag)

/-- `WriteI(n)` (43_index_memory.md R176). -/
def State.writeI (s : State) (n : Nat) : State :=
  { s with i := BitVec.ofNat 16 (if s.cfg.iMask12 then n % 4096 else n % 65536) }

/-- `pc <- target` (R25). -/
def State.jump (s : State) (target : Word) : State := { s with pc := target }

/-- The advance of PC past the fetched word (40_step_cycle.md R112), modulo 65536 (R25). -/
def State.advancePc (s : State) : State := s.jump (s.pc + 2#16)

/-- A skip: 2 more when the condition holds (41_control_flow.md R139). -/
def State.skipIf (s : State) (c : Bool) : State := if c then s.jump (s.pc + 2#16) else s

/-- Push (R26): the entry at SP, then SP up by one; an error with nothing changed when 16 entries are in use. -/
def State.push (s : State) (w : Word) : Except ExecError State :=
  if h : s.sp.val < 16 then .ok { s with stk := s.stk.set s.sp.val w h, sp := ⟨s.sp.val + 1, by omega⟩ }
  else .error .stackOverflow

/-- Pop (R26): SP down by one, then the entry at SP, which stays; an error with nothing changed when the stack is empty. -/
def State.pop (s : State) : Except ExecError (Word × State) :=
  if h : s.sp.val = 0 then .error .stackUnderflow
  else .ok (s.stk[s.sp.val - 1]'(by omega), { s with sp := ⟨s.sp.val - 1, by omega⟩ })

/-- The level `ST > 0` (R29). -/
def State.soundActive (s : State) : Bool := decide (s.st ≠ 0x00#8)

/-! ### Inputs -/

/-- What the outside does at the coming step event: given in the state, or else free (notes/assumptions/2.md). -/
def State.stimulus (s : State) : Stimulus :=
  match s.stimuli with
  | x :: _ => x
  | [] => { ticks := Config.ticksBefore s.eventNo, keys := Config.keys s.eventNo, rnd := Config.rnd s.eventNo,
            fbHint := Config.fbHint s.eventNo }

/-- The one read of the KEYS port in a step event (R32). -/
def State.keys (s : State) : BitVec 16 := s.stimulus.keys

/-- The draw from the random source in a step event (R33). -/
def State.rnd (s : State) : Byte := s.stimulus.rnd

/-- A step event is over: the outside moves on. -/
def State.nextEvent (s : State) : State := { s with stimuli := s.stimuli.tail, eventNo := s.eventNo + 1 }

/-- `set_keys(m)` (R8): the KEYS port answers `m` in the coming step event. -/
def State.setKeys (s : State) (m : BitVec 16) : State :=
  { s with stimuli := { s.stimulus with keys := m } :: s.stimuli.tail }

/-! ### The ends of a step -/

/-- The instruction is complete and draws nothing: outcome Ok, `fb_changed` false, the sound level after it (R114 to
R116). -/
def State.done (s : State) : State :=
  { s with outcome := some (.ok { fbChanged := false, soundActive := s.soundActive }) }

/-- A 00E0 or DXYN is complete: `fb_changed` is true if a pixel differs from `old`, and free otherwise (R115). -/
def State.doneDrawing (s : State) (old : Grid) : State :=
  { s with outcome := some (.ok { fbChanged := decide (s.fb ≠ old) || s.stimulus.fbHint
                                  soundActive := s.soundActive }) }

/-- No key is held: PC back to the instruction and nothing else (R117, 45_timers_keys.md R205). -/
def State.waitForKey (s : State) : State := { s with pc := s.pc - 2#16, outcome := some .waitingForKey }

/-- `raise e` (R118) and what follows (60_exceptions.md R248 to R251): an error that halts sets HALTED and ERR; a
suppressed one is appended to the log. Nothing else changes, PC as it stands. -/
def State.raise (s : State) (e : ExecError) : State :=
  if e.halts s.cfg.errPolicy then { s with halted := true, err := some e, outcome := some (.err e) }
  else { s with errLog := s.errLog ++ [e], outcome := some (.err e) }

/-- A step event of a halted CPU: nothing changes (R110); the outcome is the recorded error. -/
def State.stayHalted (s : State) : State := { s with outcome := some (.halted s.err) }

/-! ### The timers -/

/-- A counter after `n` ticks: down to 0, where it stays (R256). -/
def countDown (n : Nat) (b : Byte) : Byte := if b = 0x00#8 then 0x00#8 else BitVec.ofNat 8 (b.toNat - n)

/-- `n` tick events in a row; `Laws.ticks_eq_iterate` says that they are `n` times `State.tick`. -/
def State.ticks (n : Nat) (s : State) : State := { s with dt := countDown n s.dt, st := countDown n s.st }

/-- The `tick` event (R256). -/
def State.tick (s : State) : State :=
  { s with dt := if s.dt = 0x00#8 then s.dt else s.dt - 1#8
           st := if s.st = 0x00#8 then s.st else s.st - 1#8 }

end Sys2Proof.Machine
end

