-- ==== Sys2Proof/Machine/Operands.lean ====
section
/-! DEFINITION. Operands: the shifted register (spec/42_load_alu.md R158), the register range of FX55 and FX65
(43_index_memory.md R174, R175), the glyph address (R172), the digits of BCD (R173), the key number and the lowest
held key (45_timers_keys.md R205, R206). -/

namespace Sys2Proof.Machine

/-- The low 4 bits of a register, used as a hexadecimal digit or a key number (R172, R206, D20). -/
def lowNibble (b : Byte) : Nat := (b &&& 0x0F#8).toNat

/-- The value 8XY6 and 8XYE shift: `V[x]` or `V[y]` as `CFG.shift_src` says (R158). -/
def State.shiftOperand (s : State) (x y : RegIx) : Byte :=
  match s.cfg.shiftSrc with
  | .vx => s.readV x
  | .vy => s.readV y

/-- `V[0]` to `V[x]`, in ascending order (R174). -/
def State.regRange (s : State) (x : RegIx) : List Byte := s.v.toList.take (x.toNat + 1)

/-- `V[k] <- xs[k]` in ascending order (R175). -/
def State.writeRange (s : State) (xs : List Byte) : State :=
  { s with v := xs.zipIdx.foldl (fun v (b, k) => v.setIfInBounds k b) s.v }

/-- The address of the glyph of the digit in the low 4 bits of a register (R172). -/
def glyphAddr (b : Byte) : Nat := fontBase + 5 * lowNibble b

/-- Hundreds, tens and ones (R173). -/
def bcdDigits (b : Byte) : List Byte :=
  [BitVec.ofNat 8 (b.toNat / 100), BitVec.ofNat 8 (b.toNat / 10 % 10), BitVec.ofNat 8 (b.toNat % 10)]

/-- `KeyHeld(k, m)` (R206). -/
def keyHeld (k : Nat) (m : BitVec 16) : Bool := m.getLsbD k

/-- The least `k` in 0..15 with key `k` held (R205, D19); 0 if none is. -/
def lowestKey (m : BitVec 16) : Nat := ((List.range 16).find? (fun k => keyHeld k m)).getD 0

/-- I after FX55 and FX65: advanced past the range when `CFG.ldst_inc` says so (R174, R175). `base` is I before. -/
def State.advanceI (s : State) (base : Nat) (x : RegIx) : State :=
  if s.cfg.ldstInc then s.writeI (base + x.toNat + 1) else s

end Sys2Proof.Machine
end

