-- ==== Sys2Proof/Machine/Flags.lean ====
section
/-! DEFINITION. The flag computations: carry, not-borrow and the bit shifted out (spec/42_load_alu.md R156 to R163). The
collision flag is the sprite drawer's (Display.lean, 44_display.md R182). -/

namespace Sys2Proof.Machine

/-- The sum modulo 256 (R162). -/
def addByte (a b : Byte) : Byte := BitVec.ofNat 8 ((a.toNat + b.toNat) % 256)

/-- The carry of an addition: the sum is 256 or more (R156, R162). -/
def addCarry (a b : Byte) : Bool := decide (256 ≤ a.toNat + b.toNat)

/-- The difference modulo 256 (R157, R162). -/
def subByte (a b : Byte) : Byte :=
  BitVec.ofNat 8 (if b.toNat ≤ a.toNat then a.toNat - b.toNat else 256 + a.toNat - b.toNat)

/-- The flag of a subtraction: 1 when there is no borrow (R157, R162, D16). -/
def noBorrow (a b : Byte) : Bool := decide (b.toNat ≤ a.toNat)

/-- The value shifted right by one (R158). -/
def shrByte (a : Byte) : Byte := BitVec.ofNat 8 (a.toNat / 2)

/-- The bit a shift right puts out (R158). -/
def shrOut (a : Byte) : Bool := a.getLsbD 0

/-- The value shifted left by one (R160). -/
def shlByte (a : Byte) : Byte := BitVec.ofNat 8 (2 * a.toNat % 256)

/-- The bit a shift left puts out (R160). -/
def shlOut (a : Byte) : Bool := a.getLsbD 7

end Sys2Proof.Machine
end

