-- ==== Sys2Proof/Machine/Alu.lean ====
section
/-! DEFINITION. Register loads, arithmetic, bitwise operations, shifts and RND (spec/42_load_alu.md). -/

namespace Sys2Proof.Machine

/-- 6XKK `LD Vx, kk` (R150). -/
def execLdKk (x : RegIx) (kk : Byte) (s : State) : Out := .next (s.writeV x kk).done

/-- 7XKK `ADD Vx, kk` (R151): no flag (D17). -/
def execAddKk (x : RegIx) (kk : Byte) (s : State) : Out := .next (s.writeV x (addByte (s.readV x) kk)).done

/-- 8XY0 `LD Vx, Vy` (R152). -/
def execLdVy (x y : RegIx) (s : State) : Out := .next (s.writeV x (s.readV y)).done

/-- 8XY1 `OR Vx, Vy` (R153): no flag (D17). -/
def execOrVy (x y : RegIx) (s : State) : Out := .next (s.writeV x (s.readV x ||| s.readV y)).done

/-- 8XY2 `AND Vx, Vy` (R154): no flag (D17). -/
def execAndVy (x y : RegIx) (s : State) : Out := .next (s.writeV x (s.readV x &&& s.readV y)).done

/-- 8XY3 `XOR Vx, Vy` (R155): no flag (D17). -/
def execXorVy (x y : RegIx) (s : State) : Out := .next (s.writeV x (s.readV x ^^^ s.readV y)).done

/-- 8XY4 `ADD Vx, Vy` (R156): VF is the carry. -/
def execAddVy (x y : RegIx) (s : State) : Out :=
  .next (s.writeResult x (addByte (s.readV x) (s.readV y)) (addCarry (s.readV x) (s.readV y))).done

/-- 8XY5 `SUB Vx, Vy` (R157): VF is 1 when there is no borrow. -/
def execSubVy (x y : RegIx) (s : State) : Out :=
  .next (s.writeResult x (subByte (s.readV x) (s.readV y)) (noBorrow (s.readV x) (s.readV y))).done

/-- 8XY7 `SUBN Vx, Vy` (R159): the operands exchanged. -/
def execSubnVy (x y : RegIx) (s : State) : Out :=
  .next (s.writeResult x (subByte (s.readV y) (s.readV x)) (noBorrow (s.readV y) (s.readV x))).done

/-- 8XY6 `SHR Vx, Vy` (R158): VF is bit 0 of the shifted register. -/
def execShr (x y : RegIx) (s : State) : Out :=
  .next (s.writeResult x (shrByte (s.shiftOperand x y)) (shrOut (s.shiftOperand x y))).done

/-- 8XYE `SHL Vx, Vy` (R160): VF is bit 7 of the shifted register. -/
def execShl (x y : RegIx) (s : State) : Out :=
  .next (s.writeResult x (shlByte (s.shiftOperand x y)) (shlOut (s.shiftOperand x y))).done

/-- CXKK `RND Vx, kk` (R161): one draw of the random source, masked. -/
def execRnd (x : RegIx) (kk : Byte) (s : State) : Out := .next (s.writeV x (s.rnd &&& kk)).done

end Sys2Proof.Machine
end

