-- ==== Sys2Proof/Machine/ControlFlow.lean ====
section
/-! DEFINITION. The control transfers (spec/41_control_flow.md). In every meaning PC is the advanced value (R112). -/

namespace Sys2Proof.Machine

/-- 0NNN `SYS nnn` (R130): IllegalInstruction with the word, always. -/
def execSys (nnn : Addr12) (s : State) : Out := .next (s.raise (.illegalInstruction (0x0#4 ++ nnn)))

/-- 00EE `RET` (R131). -/
def execRet (s : State) : Out :=
  match s.pop with
  | .error e => .next (s.raise e)
  | .ok (w, t) => .next (t.jump w).done

/-- 1NNN `JP nnn` (R132). -/
def execJp (nnn : Addr12) (s : State) : Out := .next (s.jump (nnn.setWidth 16)).done

/-- 2NNN `CALL nnn` (R133): the pushed value is the advanced PC. -/
def execCall (nnn : Addr12) (s : State) : Out :=
  match s.push s.pc with
  | .error e => .next (s.raise e)
  | .ok t => .next (t.jump (nnn.setWidth 16)).done

/-- 3XKK `SE Vx, kk` (R134). -/
def execSeKk (x : RegIx) (kk : Byte) (s : State) : Out := .next (s.skipIf (decide (s.readV x = kk))).done

/-- 4XKK `SNE Vx, kk` (R135). -/
def execSneKk (x : RegIx) (kk : Byte) (s : State) : Out := .next (s.skipIf (decide (s.readV x ≠ kk))).done

/-- 5XY0 `SE Vx, Vy` (R136). -/
def execSeVy (x y : RegIx) (s : State) : Out := .next (s.skipIf (decide (s.readV x = s.readV y))).done

/-- 9XY0 `SNE Vx, Vy` (R137). -/
def execSneVy (x y : RegIx) (s : State) : Out := .next (s.skipIf (decide (s.readV x ≠ s.readV y))).done

/-- BNNN `JP V0, nnn` (R138): the offset register is always V0. -/
def execJpV0 (nnn : Addr12) (s : State) : Out :=
  .next (s.jump (nnn.setWidth 16 + (s.readV 0x0#4).setWidth 16)).done

end Sys2Proof.Machine
end

