-- ==== Sys2Proof/Machine/Display.lean ====
section
/-! DEFINITION. The framebuffer, the XOR sprite drawer with its collision detector, CLS and DRW (spec/44_display.md). -/

namespace Sys2Proof.Machine

/-- `FB[q][c]`. -/
def Grid.pixel (g : Grid) (q : Fin 32) (c : Fin 64) : Bool := (g[q])[c]

/-- `FB[q][c] <- p`. -/
def Grid.setPixel (g : Grid) (q : Fin 32) (c : Fin 64) (p : Bool) : Grid :=
  g.set q.val ((g[q]).set c.val p c.isLt) q.isLt

/-- All pixels unset (R180). -/
def Grid.clear : Grid := Vector.replicate 32 (Vector.replicate 64 false)

/-- The column of bit `b` of a sprite row drawn from column `x0` (R182). -/
def spriteCol (x0 b : Nat) : Fin 64 := Fin.ofNat 64 (x0 + b)

/-- The row of sprite row `r` drawn from row `y0` (R182). -/
def spriteRow (y0 r : Nat) : Fin 32 := Fin.ofNat 32 (y0 + r)

/-- One sprite bit (R182): `b = 0` is the most significant bit of the row's byte; the bit is XORed into its pixel, and a
set pixel under a 1 bit is a collision. -/
def drawBit (x0 : Nat) (q : Fin 32) (byte : Byte) (acc : Grid × Bool) (b : Nat) : Grid × Bool :=
  (acc.1.setPixel q (spriteCol x0 b) (acc.1.pixel q (spriteCol x0 b) ^^ byte.getLsbD (7 - b)),
    acc.2 || (acc.1.pixel q (spriteCol x0 b) && byte.getLsbD (7 - b)))

/-- One sprite row: bits 0 to 7 in order (R182). -/
def drawRow (x0 : Nat) (q : Fin 32) (byte : Byte) (acc : Grid × Bool) : Grid × Bool :=
  (List.range 8).foldl (drawBit x0 q byte) acc

/-- The sprite rows `r`, `r + 1`, ... in order (R182). -/
def drawRows (x0 y0 : Nat) : Nat → List Byte → Grid × Bool → Grid × Bool
  | _, [], acc => acc
  | r, byte :: rows, acc => drawRows x0 y0 (r + 1) rows (drawRow x0 (spriteRow y0 r) byte acc)

/-- `DrawSprite(x0, y0, rows)` (R182): the framebuffer after it, and the collision flag. -/
def drawSprite (x0 y0 : Nat) (rows : List Byte) (g : Grid) : Grid × Bool := drawRows x0 y0 0 rows (g, false)

/-- 00E0 `CLS` (R180). -/
def execCls (s : State) : Out := .next ({ s with fb := Grid.clear }.doneDrawing s.fb)

/-- DXYN `DRW Vx, Vy, n` (R181): the coordinates are read before VF is written. -/
def execDrw (x y : RegIx) (n : BitVec 4) (s : State) : Out :=
  match s.loadBytes s.i.toNat n.toNat with
  | .error e => .next (s.raise e)
  | .ok rows =>
    let d := drawSprite (s.readV x).toNat (s.readV y).toNat rows s.fb
    .next (({ s with fb := d.1 }.writeV vf (flagByte d.2)).doneDrawing s.fb)

end Sys2Proof.Machine
end

