-- ==== Sys2Proof/Machine/IndexMemory.lean ====
section
/-! DEFINITION. The index register and the memory instructions (spec/43_index_memory.md). -/

namespace Sys2Proof.Machine

/-- ANNN `LD I, nnn` (R170). -/
def execLdI (nnn : Addr12) (s : State) : Out := .next (s.writeI nnn.toNat).done

/-- FX1E `ADD I, Vx` (R171): no flag (D17). -/
def execAddI (x : RegIx) (s : State) : Out := .next (s.writeI (s.i.toNat + (s.readV x).toNat)).done

/-- FX29 `LD F, Vx` (R172). -/
def execLdF (x : RegIx) (s : State) : Out := .next (s.writeI (glyphAddr (s.readV x))).done

/-- FX33 `LD B, Vx` (R173). -/
def execLdB (x : RegIx) (s : State) : Out :=
  match s.storeBytes s.i.toNat (bcdDigits (s.readV x)) with
  | .error e => .next (s.raise e)
  | .ok t => .next t.done

/-- FX55 `LD [I], Vx` (R174). -/
def execStoreRegs (x : RegIx) (s : State) : Out :=
  match s.storeBytes s.i.toNat (s.regRange x) with
  | .error e => .next (s.raise e)
  | .ok t => .next (t.advanceI s.i.toNat x).done

/-- FX65 `LD Vx, [I]` (R175). -/
def execLoadRegs (x : RegIx) (s : State) : Out :=
  match s.loadBytes s.i.toNat (x.toNat + 1) with
  | .error e => .next (s.raise e)
  | .ok bs => .next ((s.writeRange bs).advanceI s.i.toNat x).done

end Sys2Proof.Machine
end

