-- ==== Sys2Proof/Machine/TimersKeys.lean ====
section
/-! DEFINITION. The timer and keypad instructions (spec/45_timers_keys.md). -/

namespace Sys2Proof.Machine

/-- FX07 `LD Vx, DT` (R200). -/
def execLdVxDt (x : RegIx) (s : State) : Out := .next (s.writeV x s.dt).done

/-- FX15 `LD DT, Vx` (R201). -/
def execLdDt (x : RegIx) (s : State) : Out := .next { s with dt := s.readV x }.done

/-- FX18 `LD ST, Vx` (R202). -/
def execLdSt (x : RegIx) (s : State) : Out := .next { s with st := s.readV x }.done

/-- EX9E `SKP Vx` (R203). -/
def execSkp (x : RegIx) (s : State) : Out := .next (s.skipIf (keyHeld (lowNibble (s.readV x)) s.keys)).done

/-- EXA1 `SKNP Vx` (R204). -/
def execSknp (x : RegIx) (s : State) : Out := .next (s.skipIf (!keyHeld (lowNibble (s.readV x)) s.keys)).done

/-- FX0A `LD Vx, K` (R205): one read of KEYS; no key held waits, else the lowest held key. -/
def execLdVxK (x : RegIx) (s : State) : Out :=
  .next (if s.keys = 0x0000#16 then s.waitForKey else (s.writeV x (BitVec.ofNat 8 (lowestKey s.keys))).done)

end Sys2Proof.Machine
end

