-- ==== Sys2Proof/Machine/Dispatch.lean ====
section
/-! DEFINITION. The dispatcher: the execute phase of one instruction (spec/40_step_cycle.md R113). PC is already
advanced (R112). -/

namespace Sys2Proof.Machine

def exec (i : Instr) (s : State) : Host.Outcome State Fault Refusal :=
  match i with
  | .cls => Sys2Proof.Machine.execCls s
  | .ret => Sys2Proof.Machine.execRet s
  | .sys nnn => Sys2Proof.Machine.execSys nnn s
  | .jp nnn => Sys2Proof.Machine.execJp nnn s
  | .call nnn => Sys2Proof.Machine.execCall nnn s
  | .seKk x kk => Sys2Proof.Machine.execSeKk x kk s
  | .sneKk x kk => Sys2Proof.Machine.execSneKk x kk s
  | .seVy x y => Sys2Proof.Machine.execSeVy x y s
  | .ldKk x kk => Sys2Proof.Machine.execLdKk x kk s
  | .addKk x kk => Sys2Proof.Machine.execAddKk x kk s
  | .ldVy x y => Sys2Proof.Machine.execLdVy x y s
  | .orVy x y => Sys2Proof.Machine.execOrVy x y s
  | .andVy x y => Sys2Proof.Machine.execAndVy x y s
  | .xorVy x y => Sys2Proof.Machine.execXorVy x y s
  | .addVy x y => Sys2Proof.Machine.execAddVy x y s
  | .subVy x y => Sys2Proof.Machine.execSubVy x y s
  | .shr x y => Sys2Proof.Machine.execShr x y s
  | .subnVy x y => Sys2Proof.Machine.execSubnVy x y s
  | .shl x y => Sys2Proof.Machine.execShl x y s
  | .sneVy x y => Sys2Proof.Machine.execSneVy x y s
  | .ldI nnn => Sys2Proof.Machine.execLdI nnn s
  | .jpV0 nnn => Sys2Proof.Machine.execJpV0 nnn s
  | .rnd x kk => Sys2Proof.Machine.execRnd x kk s
  | .drw x y n => Sys2Proof.Machine.execDrw x y n s
  | .skp x => Sys2Proof.Machine.execSkp x s
  | .sknp x => Sys2Proof.Machine.execSknp x s
  | .ldVxDt x => Sys2Proof.Machine.execLdVxDt x s
  | .ldVxK x => Sys2Proof.Machine.execLdVxK x s
  | .ldDt x => Sys2Proof.Machine.execLdDt x s
  | .ldSt x => Sys2Proof.Machine.execLdSt x s
  | .addI x => Sys2Proof.Machine.execAddI x s
  | .ldF x => Sys2Proof.Machine.execLdF x s
  | .ldB x => Sys2Proof.Machine.execLdB x s
  | .storeRegs x => Sys2Proof.Machine.execStoreRegs x s
  | .loadRegs x => Sys2Proof.Machine.execLoadRegs x s

end Sys2Proof.Machine
end

