-- ==== Sys2Proof/Machine/Cycle.lean ====
section
/-! DEFINITION. The fetch, decode and execute cycle (spec/40_step_cycle.md R110 to R119), and how the host places a word
where the next step fetches. -/

namespace Sys2Proof.Machine

/-- Decode and execute the latched word; PC is already advanced (R113). A word that selects no row raises
IllegalInstruction with the word (R95, R241). -/
def decodeAndExecute (w : Word) (s : State) : Out :=
  match decodeWord w with
  | .ok i => exec i s
  | .error _ => .next (s.raise (.illegalInstruction w))

/-- The phases of R111 to R113 of a CPU that is not halted; a fetch error leaves PC where it is (R118). -/
def fetchAndExecute (s : State) : Out :=
  match s.fetch with
  | .ok w => decodeAndExecute w s.advancePc
  | .error e => .next (s.raise e)

/-- One step event of the CPU (R110). A halted CPU changes nothing. -/
def cpuStep (s : State) : Out :=
  mapNext State.nextEvent (if s.halted then .next s.stayHalted else fetchAndExecute s)

/-- The tick events before the next step event, and that step event (R9, R261; notes/assumptions/5.md). -/
def tickAndStep (s : State) : Out := cpuStep (s.ticks s.stimulus.ticks)

/-- `s` with the word `w` at PC, high byte first, and a CPU that is not halted (notes/assumptions/20.md). -/
def placeWord (s : State) (w : Word) : State :=
  { s with mem := (s.mem.write (s.pc.toNat % 4096) (w.extractLsb' 8 8)).write ((s.pc.toNat + 1) % 4096)
                    (w.extractLsb' 0 8)
           halted := false
           err := none }

end Sys2Proof.Machine
end

