-- ==== Sys2Proof/Machine/Step.lean ====
section
/-! DEFINITION. The step of the machine, under its fixed names. -/

namespace Sys2Proof.Machine

/-- One step: the ticks that fall before the next step event, and that event. -/
def step (s : State) : Host.Outcome State Fault Refusal := tickAndStep s

/-- `s` with a word of the opcode table stored where `step` fetches its next instruction. -/
def State.withFetchWord (s : State) (nbits w : Nat) : State := placeWord s (tableWord nbits w)

end Sys2Proof.Machine
end

