-- ==== Sys2Proof/Machine/Sequencer.lean ====
section
/-! DEFINITION. The host's operations and the sequencer SEQ: `load_rom` (spec/20_memory.md R71), the boot sequence
(70_reset_and_hazards.md R282) and `advance` (60_exceptions.md R260 to R263). -/

namespace Sys2Proof.Machine

/-- `PROG_BASE` (00_scope.md R4). -/
def progBase : Nat := 0x200

/-- `ROM_MAX` (R4). -/
def romMax : Nat := 3584

/-- `load_rom(bytes)` (R71), allowed once, before the first step (R282, D34). -/
def loadRom (bytes : List Byte) (s : State) : Out :=
  if s.eventNo ≠ 0 then .refused .loadOutsideBoot
  else if romMax < bytes.length then .fault (.romTooLarge bytes.length)
  else .next { s with mem := s.mem.writeAll ((List.range' progBase bytes.length).zip bytes), eventNo := 1 }

/-- The boot sequence (R282): reset with a configuration of this hardware, then the load. -/
def boot (cfg : Cfg) (bytes : List Byte) : Out :=
  if cfg.ok then loadRom bytes (State.resetWith cfg) else .refused .badConfiguration

/-- An event SEQ issues. -/
inductive SeqEvent where
  | tick
  | step
deriving DecidableEq, Repr

/-- The events of `order`, one after another, and the outcomes of its step events (R261). -/
def runEvents : List SeqEvent → State → Host.Outcome (State × List StepOutcome) Fault Refusal
  | [], s => .next (s, [])
  | .tick :: es, s => runEvents es s.tick
  | .step :: es, s =>
    match cpuStep s with
    | .next t =>
      match runEvents es t with
      | .next (u, os) => .next (u, t.outcome.toList ++ os)
      | .fault r => .fault r
      | .refused r => .refused r
    | .fault r => .fault r
    | .refused r => .refused r

/-- The errors a `FrameResult` reports (R263): the first one under FailFast, all of them under Permissive. -/
inductive FrameErrors where
  | first (e : Option ExecError)
  | all (es : List ExecError)
deriving DecidableEq, Repr

/-- The output of one `advance` (R263). -/
structure FrameResult where
  executed : Nat
  fbChanged : Bool
  soundActive : Bool
  errors : FrameErrors
deriving DecidableEq, Repr

/-- Whether a step event counts as an executed instruction: Ok or WaitingForKey (R263, D38). -/
def StepOutcome.executed : StepOutcome → Bool
  | .ok _ => true
  | .waitingForKey => true
  | .err _ => false
  | .halted _ => false

/-- Whether a step reported a framebuffer change (R263). -/
def StepOutcome.fbChanged : StepOutcome → Bool
  | .ok fx => fx.fbChanged
  | .waitingForKey => false
  | .err _ => false
  | .halted _ => false

/-- The error a step raised, if it raised one (R263). -/
def StepOutcome.error? : StepOutcome → Option ExecError
  | .ok _ => none
  | .waitingForKey => none
  | .err e => some e
  | .halted _ => none

/-- The `FrameResult` of an `advance` that ended in `s` with these step outcomes (R263). -/
def frameResult (s : State) (os : List StepOutcome) : FrameResult :=
  { executed := os.countP StepOutcome.executed
    fbChanged := os.any StepOutcome.fbChanged
    soundActive := s.soundActive
    errors :=
      match s.cfg.errPolicy with
      | .failFast => .first (os.filterMap StepOutcome.error?).head?
      | .permissive => .all (os.filterMap StepOutcome.error?) }

/-- The whole periods of a clock of `hz` events a second that fit in the elapsed time `acc` (R260). -/
def wholePeriods (acc : Rat) (hz : Nat) : Nat := (acc * hz).floor.toNat

/-- What is left of `acc` after them (R260). -/
def carryOver (acc : Rat) (hz : Nat) : Rat := acc - wholePeriods acc hz / hz

/-- The tick events `advance(dt)` issues (R260). -/
def ticksDue (s : State) (dt : Rat) : Nat := wholePeriods (s.accT + dt) s.cfg.timerHz

/-- The step events `advance(dt)` issues (R260). -/
def stepsDue (s : State) (dt : Rat) : Nat := wholePeriods (s.accC + dt) s.cfg.cpuHz

/-- `advance(dt)` (R260), for every order of the events it pays for (R261; notes/assumptions/11.md). -/
def advance (dt : Rat) (order : List SeqEvent) (s : State) : Host.Outcome (State × FrameResult) Fault Refusal :=
  if !s.cfg.ok then .refused .badConfiguration
  else if dt < 0 ∨ order.count .tick ≠ ticksDue s dt ∨ order.count .step ≠ stepsDue s dt then .refused .notAnAdvance
  else
    match runEvents order { s with accT := carryOver (s.accT + dt) s.cfg.timerHz
                                   accC := carryOver (s.accC + dt) s.cfg.cpuHz } with
    | .next (t, os) => .next (t, frameResult t os)
    | .fault r => .fault r
    | .refused r => .refused r

end Sys2Proof.Machine
end

