-- ==== Sys2Proof/WellFormed.lean ====
section
/-! DEFINITION. Well-formed instructions. Every field has exactly its encoding's width, so the one thing left to check
is that `SYS nnn` is not one of the two words 00E0 and 00EE, which are CLS and RET (30_encoding.md R94, R96). -/

namespace Sys2Proof

/-- The check of an instruction's syntax: `SYS 0x0E0` and `SYS 0x0EE` are refused, since the rows 00E0 and 00EE take
precedence over 0NNN (R94). -/
def Instr.wellFormed : Instr → Bool
  | .cls => true
  | .ret => true
  | .sys nnn => nnn != 0x0E0#12 && nnn != 0x0EE#12
  | .jp _ => true
  | .call _ => true
  | .seKk _ _ => true
  | .sneKk _ _ => true
  | .seVy _ _ => true
  | .ldKk _ _ => true
  | .addKk _ _ => true
  | .ldVy _ _ => true
  | .orVy _ _ => true
  | .andVy _ _ => true
  | .xorVy _ _ => true
  | .addVy _ _ => true
  | .subVy _ _ => true
  | .shr _ _ => true
  | .subnVy _ _ => true
  | .shl _ _ => true
  | .sneVy _ _ => true
  | .ldI _ => true
  | .jpV0 _ => true
  | .rnd _ _ => true
  | .drw _ _ _ => true
  | .skp _ => true
  | .sknp _ => true
  | .ldVxDt _ => true
  | .ldVxK _ => true
  | .ldDt _ => true
  | .ldSt _ => true
  | .addI _ => true
  | .ldF _ => true
  | .ldB _ => true
  | .storeRegs _ => true
  | .loadRegs _ => true

end Sys2Proof
end

