-- ==== Sys2Proof/Safety.lean ====
section
/-! DEFINITION. The terms the claims use: the invariant of the state, and which parts of the state an instruction leaves
alone. -/

namespace Sys2Proof.Machine

/-! ### The invariant -/

/-- An error this machine can raise under these straps: an illegal word is one the decoder refuses or 0NNN (R241), and
OutOfBounds needs StrictBounds, an address of 4096 or more, and the tag of a memory access (R242). -/
def ExecError.Possible (c : Cfg) : ExecError → Prop
  | .illegalInstruction w => (∃ r, decodeWord w = .error r) ∨ ∃ nnn, decodeWord w = .ok (.sys nnn)
  | .outOfBounds tag a =>
    c.addrMode = .strictBounds ∧ 4096 ≤ a ∧ (tag = .fetch ∨ tag = .memRead ∨ tag = .memWrite)
  | .stackOverflow => True
  | .stackUnderflow => True

/-- The invariant every step keeps. -/
structure State.Inv (s : State) : Prop where
  /-- memory is in canonical form -/
  memCanonical : s.mem.wf = true
  /-- with `CFG.i_mask12`, I stays below 0x1000 (10_state.md R23) -/
  indexMasked : s.cfg.iMask12 = true → s.i.toNat < 4096
  /-- ERR is recorded exactly while HALTED is set (R35) -/
  haltedIffErr : s.halted = s.err.isSome
  /-- the recorded error halts under the error policy (60_exceptions.md R248, R249) and is a possible one -/
  errHalts : ∀ e, s.err = some e → e.halts s.cfg.errPolicy = true ∧ e.Possible s.cfg
  /-- a logged error is one the policy suppresses (R251) and is a possible one -/
  logSuppressed : ∀ e ∈ s.errLog, e.halts s.cfg.errPolicy = false ∧ e.Possible s.cfg

/-- A run without an error so far: not halted (R249), and no error suppressed (93_implementation_defined.md U5). -/
def State.Clean (s : State) : Prop := s.halted = false ∧ s.errLog = []

/-! ### What stays as it was -/

/-- Every V register is as before. -/
def SameRegs (s t : State) : Prop := ∀ r, t.readV r = s.readV r

/-- Every V register but `x` is as before. -/
def SameRegsBut (x : RegIx) (s t : State) : Prop := ∀ r, r ≠ x → t.readV r = s.readV r

/-- I is as before. -/
def SameIndex (s t : State) : Prop := t.i = s.i

/-- SP and every stack entry are as before. -/
def SameStack (s t : State) : Prop := t.sp = s.sp ∧ t.stk = s.stk

/-- DT and ST are as before. -/
def SameTimers (s t : State) : Prop := t.dt = s.dt ∧ t.st = s.st

/-- Every byte of memory is as before. -/
def SameMemory (s t : State) : Prop := ∀ a, t.readByte a = s.readByte a

/-- Every byte of memory outside the `n` bytes stored from the requested address `base` up is as before (each address
modulo 4096, R63, R64). -/
def SameMemoryBut (base n : Nat) (s t : State) : Prop :=
  ∀ a, (∀ k < n, (base + k) % 4096 ≠ a) → t.readByte a = s.readByte a

/-- Every pixel is as before. -/
def SameScreen (s t : State) : Prop := ∀ q c, t.fb.pixel q c = s.fb.pixel q c

/-- HALTED, ERR and the log of suppressed errors are as before. -/
def SameStatus (s t : State) : Prop := t.halted = s.halted ∧ t.err = s.err ∧ t.errLog = s.errLog

/-- The straps, SEQ's accumulators and what the outside is to do are as before. -/
def SameOutside (s t : State) : Prop :=
  t.cfg = s.cfg ∧ t.accT = s.accT ∧ t.accC = s.accC ∧ t.stimuli = s.stimuli ∧ t.eventNo = s.eventNo

/-- The frame of an instruction that changes V registers and PC only. -/
def RegsAndPcOnly (s t : State) : Prop :=
  SameIndex s t ∧ SameStack s t ∧ SameTimers s t ∧ SameMemory s t ∧ SameScreen s t ∧ SameStatus s t ∧ SameOutside s t

/-- The frame of an instruction that changes PC only. -/
def PcOnly (s t : State) : Prop := SameRegs s t ∧ RegsAndPcOnly s t

/-- The outcome of a completed instruction that draws nothing: Ok, `fb_changed` false, the level of the sound output
(40_step_cycle.md R114 to R116). -/
def Completed (t : State) : Prop :=
  ∃ fx, t.outcome = some (.ok fx) ∧ fx.fbChanged = false ∧ (fx.soundActive = true ↔ 0 < t.st.toNat)

/-- What an error leaves of the state it is raised in: HALTED and ERR set, or the log grown by it, as the class and the
policy say (60_exceptions.md R248, R249, R251); the outcome; and nothing else (40_step_cycle.md R118). PC is not named:
`AfterError` is used with the state of the moment of the error. -/
def AfterError (e : ExecError) (s t : State) : Prop :=
  t.outcome = some (.err e) ∧
  (if e.errorClass = .fatal ∨ s.cfg.errPolicy = .failFast
    then t.halted = true ∧ t.err = some e ∧ t.errLog = s.errLog
    else t.halted = s.halted ∧ t.err = s.err ∧ t.errLog = s.errLog ++ [e]) ∧
  SameRegs s t ∧ SameIndex s t ∧ SameStack s t ∧ SameTimers s t ∧ SameMemory s t ∧ SameScreen s t ∧ SameOutside s t

/-! ### Accesses and sprites -/

/-- The `n` requested addresses from I up are all accepted by `Addr` (20_memory.md R63). -/
def InReach (s : State) (n : Nat) : Prop := ∀ k < n, s.cfg.addrMode = .wraparound ∨ s.i.toNat + k < 4096

/-- `I + k` is the first of the `n` requested addresses from I up that `Addr` refuses. -/
def FirstOutOfReach (s : State) (n k : Nat) : Prop :=
  s.cfg.addrMode = .strictBounds ∧ k < n ∧ 4096 ≤ s.i.toNat + k ∧ ∀ j < k, s.i.toNat + j < 4096

/-- The sprite whose row `r` is the byte `row r`, `n` rows high, drawn from column `x0` and row `y0`, has a 1 bit over
the pixel at row `q` and column `c` (44_display.md R182). -/
def SpriteOver (row : Nat → Byte) (n x0 y0 : Nat) (q : Fin 32) (c : Fin 64) : Prop :=
  ∃ r < n, ∃ b < 8, (y0 + r) % 32 = q.val ∧ (x0 + b) % 64 = c.val ∧ (row r).getLsbD (7 - b) = true

/-- The sprite `DRW Vx, Vy, n` draws in the state `s`, the `n` bytes from I up, has a 1 bit over the pixel (R181). -/
def DrwCovers (s : State) (x y : RegIx) (n : BitVec 4) (q : Fin 32) (c : Fin 64) : Prop :=
  SpriteOver (fun r => s.readByte ((s.i.toNat + r) % 4096)) n.toNat (s.readV x).toNat (s.readV y).toNat q c

/-! ### What an advance reports -/

/-- The record `r` reports the outcomes `os` of an advance's step events (60_exceptions.md R263): how many ran (Ok or
WaitingForKey, D38), whether one reported a framebuffer change, and the first error under FailFast or all of them, in
order, under Permissive. -/
def FrameResult.Reports (r : FrameResult) (p : ErrPolicy) (os : List StepOutcome) : Prop :=
  r.executed = (os.map fun
    | .ok _ => 1
    | .waitingForKey => 1
    | .err _ => 0
    | .halted _ => 0).sum ∧
  (r.fbChanged = true ↔ ∃ fx, StepOutcome.ok fx ∈ os ∧ fx.fbChanged = true) ∧
  (p = .failFast →
    ((∀ e, StepOutcome.err e ∉ os) ∧ r.errors = .first none) ∨
    (∃ e before after, os = before ++ StepOutcome.err e :: after ∧ (∀ e', StepOutcome.err e' ∉ before) ∧
      r.errors = .first (some e))) ∧
  (p = .permissive → ∃ es, r.errors = .all es ∧ es.map StepOutcome.err = os.filter fun
    | .ok _ => false
    | .waitingForKey => false
    | .err _ => true
    | .halted _ => false)

end Sys2Proof.Machine
end

