-- ==== Sys2Proof/Certificates/Slice0/Obligations.lean ====
section
/-! DEFINITION. The statements about the machine. "Derived" in a docstring means that the rule's text carries a mark of
the spec itself (a decision D<n>, a derivation, general knowledge) or that the statement is the model's choice, and
names it. D4 is the decision that takes the bit patterns from the customary encoding; the source shows three words. In
every statement about `exec`, `s` is the state with PC already advanced (40_step_cycle.md R112), and the outcome of a
step stands in the state's field `outcome` (notes/assumptions/7.md). `cpuStep` is the step event of the rules; `step`
runs the tick events that fall before it first (notes/assumptions/5.md). -/

open Sys2Proof Sys2Proof.Machine

/-! ## Encoding -/

/-- R90, R91, R94 (derived: D4 gives the bit patterns). The word of a well-formed instruction decodes to it, alone and
at the head of a byte stream. -/
def Obligations.DecodeOfEncodeIsTheInstruction : Prop :=
  ∀ (i : Instr) (rest : List Byte), i.wellFormed = true →
    decodeWord (encode i) = .ok i ∧ decodeBytes (bytesOfWord (encode i) ++ rest) = .ok (i, rest)

/-- R94, R97 (derived: D4). Every bit of a word that decodes is accounted for: the word is the encoding of what it
decodes to, and that is well formed. -/
def Obligations.EncodeOfDecodeIsTheWord : Prop :=
  ∀ (w : Word) (i : Instr), decodeWord w = .ok i → i.wellFormed = true ∧ encode i = w

/-- R94, R95 (derived: D6). Which words no row takes, by their digits; every other word decodes. -/
def Obligations.UnrecognisedWordsAreThese : Prop :=
  ∀ w : Word, (∃ r, decodeWord w = .error r) ↔
    ((w.toNat / 4096 = 0x5 ∨ w.toNat / 4096 = 0x9) ∧ w.toNat % 16 ≠ 0) ∨
    (w.toNat / 4096 = 0x8 ∧ (8 ≤ w.toNat % 16 ∧ w.toNat % 16 ≠ 0xE)) ∨
    (w.toNat / 4096 = 0xE ∧ w.toNat % 256 ≠ 0x9E ∧ w.toNat % 256 ≠ 0xA1) ∨
    (w.toNat / 4096 = 0xF ∧ w.toNat % 256 ∉ [0x07, 0x0A, 0x15, 0x18, 0x1E, 0x29, 0x33, 0x55, 0x65])

/-- R91, R93, R94 (derived: D4 for all but the first three, which the source shows, S1 and S2): those, and one word of
each other format. -/
def Obligations.SampleWordsDecode : Prop :=
  decodeWord 0x6005#16 = .ok (.ldKk 0 0x05) ∧ decodeWord 0x7001#16 = .ok (.addKk 0 0x01) ∧
  decodeWord 0xA200#16 = .ok (.ldI 0x200) ∧ decodeWord 0x00EE#16 = .ok .ret ∧
  decodeWord 0x8126#16 = .ok (.shr 1 2) ∧ decodeWord 0xD125#16 = .ok (.drw 1 2 5) ∧
  decodeWord 0xF30A#16 = .ok (.ldVxK 3) ∧ decodeWord 0x0123#16 = .ok (.sys 0x123)

/-! ## The cycle -/

/-- R110 to R113 (derived: R64, R67, D12 for the two addresses). When the two bytes at PC decode to an instruction, a
step of a CPU that is not halted is the instruction's own effect, from the state whose timers have taken the ticks that
fall before the step event (notes/assumptions/5.md) and whose PC is advanced by 2; then the outside moves on. -/
def Obligations.StepRunsTheDecodedInstruction : Prop :=
  ∀ (s : State) (i : Instr), s.halted = false →
    (s.cfg.addrMode = .wraparound ∨ s.pc.toNat + 1 < 4096) →
    decodeWord (s.readByte (s.pc.toNat % 4096) ++ s.readByte ((s.pc.toNat + 1) % 4096)) = .ok i →
    step s = mapNext State.nextEvent (exec i ((s.ticks s.stimulus.ticks).jump (s.pc + 2#16)))

/-- R9, R110, R249, R251 (derived: D27 for a halted CPU): "step() and tick() never block". Every step, of every state,
answers a next state; that none is a fault or a refusal holds because the errors of a step are next states, the model's
choice (notes/assumptions/8.md). -/
def Obligations.StepAlwaysAnswersANextState : Prop := ∀ s : State, ∃ t, step s = .next t

/-- R110, R249, R252 (derived: D27). The step event of a halted CPU changes no state, and its outcome is the recorded
error. Of the fixed `step` the same holds but for DT and ST, which take the ticks that fall before the event, the
model's choice (notes/assumptions/5.md). -/
def Obligations.HaltedCpuChangesNothing : Prop :=
  ∀ s : State, s.halted = true →
    (∃ t, cpuStep s = .next t ∧ t.outcome = some (.halted s.err) ∧ t.pc = s.pc ∧
      SameRegs s t ∧ SameIndex s t ∧ SameStack s t ∧ SameTimers s t ∧ SameMemory s t ∧ SameScreen s t ∧ SameStatus s t ∧
      t.cfg = s.cfg ∧ t.accT = s.accT ∧ t.accC = s.accC) ∧
    (∃ t, step s = .next t ∧ t.outcome = some (.halted s.err) ∧ t.pc = s.pc ∧
      SameRegs s t ∧ SameIndex s t ∧ SameStack s t ∧ SameMemory s t ∧ SameScreen s t ∧ SameStatus s t ∧
      t.cfg = s.cfg ∧ t.accT = s.accT ∧ t.accC = s.accC ∧
      t.dt.toNat = s.dt.toNat - s.stimulus.ticks ∧ t.st.toNat = s.st.toNat - s.stimulus.ticks)

/-- R241, R249, R118, R250 (derived: D23 for what stays as it was). A word that no row of the opcode map takes is
always fatal, under either policy, and is raised in the decode phase, after PC was advanced; registers, I, the stack,
memory and the screen stay. -/
def Obligations.IllegalWordIsAlwaysFatal : Prop :=
  ∀ (s : State) (w : Word) (r : DecodeReject), s.halted = false → s.fetch = .ok w → decodeWord w = .error r →
    ∃ t, step s = .next t ∧ t.outcome = some (.err (.illegalInstruction w)) ∧ t.halted = true ∧
      t.err = some (.illegalInstruction w) ∧ t.errLog = s.errLog ∧ t.pc = s.pc + 2#16 ∧
      SameRegs s t ∧ SameIndex s t ∧ SameStack s t ∧ SameMemory s t ∧ SameScreen s t

/-- R111, R118, R242, R248, R249, R251 (derived: D12, D23). A fetch outside the memory under StrictBounds: the error
names the first of the two addresses that is outside, PC stays, and the step event changes no other part of the
program's state. Of the fixed `step` the same holds against the state after the ticks that fall before the event, the
model's choice (notes/assumptions/5.md). -/
def Obligations.FetchErrorLeavesPc : Prop :=
  ∀ (s : State) (e : ExecError), s.halted = false → s.cfg.addrMode = .strictBounds → 0xFFF ≤ s.pc.toNat →
    e = .outOfBounds .fetch (if s.pc.toNat = 0xFFF then 0x1000 else s.pc.toNat) →
    (∃ t, cpuStep s = .next t ∧ AfterError e s.nextEvent t ∧ t.pc = s.pc) ∧
    (∃ t, step s = .next t ∧ AfterError e (s.ticks s.stimulus.ticks).nextEvent t ∧ t.pc = s.pc)

/-- R118, R250 (derived: D23): "a step that raises has written no V register, no I, no SP, no STK entry, no timer, no
pixel and no byte of memory"; PC is where it was for a fetch error and two further on otherwise. DT and ST are those of
the state after the ticks that fall before the step event, the model's choice (notes/assumptions/5.md). -/
def Obligations.ErrorsArePrecise : Prop :=
  ∀ (s t : State) (e : ExecError), step s = .next t → t.outcome = some (.err e) →
    AfterError e (s.ticks s.stimulus.ticks).nextEvent t ∧
      t.pc = (if e.tag = .fetch then s.pc else s.pc + 2#16)

/-- R242, R63, R67, R68 (derived: D12 for the two addresses of a fetch). OutOfBounds is raised only under StrictBounds,
and there exactly by a fetch with PC at 0xFFF or above, and by DXYN, FX33, FX55 and FX65 when a byte they use lies at
4096 or above; FailFast halts, Permissive does not. Under Wraparound a fetch never fails: it reads the two addresses
modulo 4096. -/
def Obligations.OutOfBoundsExactlyThere : Prop :=
  ∀ s t : State, s.halted = false → step s = .next t →
    ((∃ tag a, t.outcome = some (.err (.outOfBounds tag a))) ↔
      s.cfg.addrMode = .strictBounds ∧
        (0xFFF ≤ s.pc.toNat ∨
          ∃ w i, s.fetch = .ok w ∧ decodeWord w = .ok i ∧
            ((∃ x y n, i = .drw x y n ∧ 1 ≤ n.toNat ∧ 4096 ≤ s.i.toNat + n.toNat - 1) ∨
              (∃ x, i = .ldB x ∧ 4096 ≤ s.i.toNat + 2) ∨
              (∃ x, (i = .storeRegs x ∨ i = .loadRegs x) ∧ 4096 ≤ s.i.toNat + x.toNat)))) ∧
    ((∃ tag a, t.outcome = some (.err (.outOfBounds tag a))) → (t.halted = true ↔ s.cfg.errPolicy = .failFast)) ∧
    (s.cfg.addrMode = .wraparound →
      s.fetch = .ok (s.readByte (s.pc.toNat % 4096) ++ s.readByte ((s.pc.toNat + 1) % 4096)))

/-- R249, R309 (derived: D33 stands in R309): the CPU comes to be halted only by an error the policy makes fatal, which
is then recorded. -/
def Obligations.OnlyAFatalErrorHalts : Prop :=
  ∀ s t : State, s.halted = false → step s = .next t → t.halted = true →
    ∃ e, t.outcome = some (.err e) ∧ t.err = some e ∧ (e.errorClass = .fatal ∨ s.cfg.errPolicy = .failFast)

/-! ## Which instruction writes which part of the state -/

/-- R22 (derived: D17, and the shifted-out bit is general knowledge). VF changes only by 8XY4, 8XY5, 8XY6, 8XY7, 8XYE
and DXYN, which leave 0 or 1 in it, and by an instruction that names VF as its destination (FX65 with x = 15). -/
def Obligations.VfChangesOnlyByFlagsOrAsDestination : Prop :=
  ∀ (i : Instr) (s t : State), exec i s = .next t →
    t.readV vf = s.readV vf ∨
    ((∃ x y n, i ∈ [Instr.addVy x y, .subVy x y, .shr x y, .subnVy x y, .shl x y, .drw x y n]) ∧
      (t.readV vf = 0x00#8 ∨ t.readV vf = 0x01#8)) ∨
    (∃ y kk, i ∈ [Instr.ldKk vf kk, .addKk vf kk, .ldVy vf y, .orVy vf y, .andVy vf y, .xorVy vf y, .rnd vf kk,
      .ldVxDt vf, .ldVxK vf, .loadRegs vf])

/-- R23 (derived: D1): I is written by ANNN, FX1E and FX29, and by FX55 and FX65 when `CFG.ldst_inc` is set. -/
def Obligations.IndexChangesOnlyByItsWriters : Prop :=
  ∀ (i : Instr) (s t : State), exec i s = .next t →
    t.i = s.i ∨ (∃ nnn, i = .ldI nnn) ∨ (∃ x, i = .addI x ∨ i = .ldF x) ∨
      (s.cfg.ldstInc = true ∧ ∃ x, i = .storeRegs x ∨ i = .loadRegs x)

/-- R26, R27 (derived: §2 and §3 of the source): no instruction other than 2NNN and 00EE writes SP or an entry, and a
pop writes no entry. -/
def Obligations.StackChangesOnlyByCallAndRet : Prop :=
  ∀ (i : Instr) (s t : State), exec i s = .next t →
    SameStack s t ∨ (∃ nnn, i = .call nnn) ∨ (i = .ret ∧ t.stk = s.stk)

/-- R258: a step changes DT only by FX15 and ST only by FX18, and each of these sets the counter to a register value,
always. Said of every instruction, and of every step event: one that runs no instruction (a fetch error, an illegal
word, a halted CPU) changes neither. -/
def Obligations.TimersChangeOnlyByTheirInstructions : Prop :=
  (∀ (x : RegIx) (s : State), (∃ t, exec (.ldDt x) s = .next t ∧ t.dt = s.readV x ∧ t.st = s.st) ∧
    (∃ t, exec (.ldSt x) s = .next t ∧ t.st = s.readV x ∧ t.dt = s.dt)) ∧
  (∀ (i : Instr) (s t : State), exec i s = .next t →
    ((∃ x, i = .ldDt x ∧ t.dt = s.readV x) ∨ ((∀ x, i ≠ .ldDt x) ∧ t.dt = s.dt)) ∧
    ((∃ x, i = .ldSt x ∧ t.st = s.readV x) ∨ ((∀ x, i ≠ .ldSt x) ∧ t.st = s.st))) ∧
  (∀ s t : State, cpuStep s = .next t →
    ((∃ w x, s.halted = false ∧ s.fetch = .ok w ∧ decodeWord w = .ok (.ldDt x) ∧ t.dt = s.readV x) ∨
      ((∀ w x, s.halted = false → s.fetch = .ok w → decodeWord w ≠ .ok (.ldDt x)) ∧ t.dt = s.dt)) ∧
    ((∃ w x, s.halted = false ∧ s.fetch = .ok w ∧ decodeWord w = .ok (.ldSt x) ∧ t.st = s.readV x) ∨
      ((∀ w x, s.halted = false → s.fetch = .ok w → decodeWord w ≠ .ok (.ldSt x)) ∧ t.st = s.st)))

/-- R31 (derived: one sentence of it): the framebuffer is written only by 00E0 and DXYN. -/
def Obligations.ScreenChangesOnlyByClsAndDrw : Prop :=
  ∀ (i : Instr) (s t : State), exec i s = .next t → SameScreen s t ∨ i = .cls ∨ ∃ x y n, i = .drw x y n

/-- R60, R78, R173, R174 (derived: D4, and general knowledge for the range FX55 stores): the only instructions that
change a byte of memory are FX33 and FX55, and they change no byte outside the ones they store, three from I up and x +
1 from I up. -/
def Obligations.MemoryChangesOnlyByItsStores : Prop :=
  ∀ (i : Instr) (s t : State), exec i s = .next t →
    SameMemory s t ∨ (∃ x, i = .ldB x ∧ SameMemoryBut s.i.toNat 3 s t) ∨
      (∃ x, i = .storeRegs x ∧ SameMemoryBut s.i.toNat (x.toNat + 1) s t)

/-- R24 (derived: which values PC may be left at): every instruction that is no control transfer leaves it at the
advanced value; 1NNN, 2NNN, BNNN and 00EE overwrite it; the skips add 0 or 2; FX0A may restore it. -/
def Obligations.PcChangesOnlyByControlTransfers : Prop :=
  ∀ (i : Instr) (s t : State), exec i s = .next t →
    t.pc = s.pc ∨ (i = .ret ∨ ∃ nnn, i ∈ [Instr.jp nnn, .call nnn, .jpV0 nnn]) ∨
    ((∃ x y kk, i ∈ [Instr.seKk x kk, .sneKk x kk, .seVy x y, .sneVy x y, .skp x, .sknp x]) ∧ t.pc = s.pc + 2#16) ∨
    ((∃ x, i = .ldVxK x) ∧ t.pc = s.pc - 2#16)

/-! ## Control flow -/

/-- R130 (derived: D4, D5). 0NNN other than 00E0 and 00EE decodes to SYS, whose whole effect is the fatal error
IllegalInstruction with its word. -/
def Obligations.SysRaisesIllegalInstruction : Prop :=
  ∀ (nnn : Addr12) (s : State), nnn ≠ 0x0E0#12 → nnn ≠ 0x0EE#12 →
    decodeWord (0x0#4 ++ nnn) = .ok (.sys nnn) ∧
    ∃ t, exec (.sys nnn) s = .next t ∧ AfterError (.illegalInstruction (0x0#4 ++ nnn)) s t ∧ t.halted = true ∧
      t.pc = s.pc

/-- R132 (derived: D4 for the words): 1NNN overwrites PC with its address, and changes nothing else. -/
def Obligations.JumpOverwritesPc : Prop :=
  ∀ (nnn : Addr12) (s : State),
    decodeWord (0x1#4 ++ nnn) = .ok (.jp nnn) ∧
    ∃ t, exec (.jp nnn) s = .next t ∧ Completed t ∧ PcOnly s t ∧ t.pc.toNat = nnn.toNat

/-- R133, R243 (derived: D4 for the word, D7, and R133's derivation of the pushed value). 2NNN pushes the advanced PC
and jumps while fewer than 16 entries are in use; with 16 it raises StackOverflow with PC at the advanced value. -/
def Obligations.CallPushesOrOverflows : Prop :=
  ∀ (nnn : Addr12) (s : State),
    decodeWord (0x2#4 ++ nnn) = .ok (.call nnn) ∧
    (s.sp.val < 16 → ∃ t, exec (.call nnn) s = .next t ∧ Completed t ∧ t.pc.toNat = nnn.toNat ∧
      t.sp.val = s.sp.val + 1 ∧ (∀ k (h : k < 16), t.stk[k] = if k = s.sp.val then s.pc else s.stk[k]) ∧
      SameRegs s t ∧ SameIndex s t ∧ SameTimers s t ∧ SameMemory s t ∧ SameScreen s t ∧ SameStatus s t ∧
      SameOutside s t) ∧
    (s.sp.val = 16 → ∃ t, exec (.call nnn) s = .next t ∧ AfterError .stackOverflow s t ∧ t.pc = s.pc)

/-- R131, R244 (derived: D4 for the word, D7): 00EE takes the top entry into PC, which stays in the stack; with an
empty stack it raises StackUnderflow with PC at the advanced value. -/
def Obligations.RetPopsOrUnderflows : Prop :=
  ∀ s : State,
    decodeWord 0x00EE#16 = .ok .ret ∧
    (∀ (k : Nat) (h : k < 16), s.sp.val = k + 1 → ∃ t, exec .ret s = .next t ∧ Completed t ∧ t.pc = s.stk[k] ∧
      t.sp.val = k ∧ t.stk = s.stk ∧
      SameRegs s t ∧ SameIndex s t ∧ SameTimers s t ∧ SameMemory s t ∧ SameScreen s t ∧ SameStatus s t ∧
      SameOutside s t) ∧
    (s.sp.val = 0 → ∃ t, exec .ret s = .next t ∧ AfterError .stackUnderflow s t ∧ t.pc = s.pc)

/-- R26, S4 (derived: D7 for the range of SP). A return after a call, from any state with the call's stack, comes back
to the instruction after the call and to the depth before it. -/
def Obligations.ReturnUndoesCall : Prop :=
  ∀ (nnn : Addr12) (s t u : State), s.sp.val < 16 → exec (.call nnn) s = .next t → SameStack t u →
    ∃ v, exec .ret u = .next v ∧ v.pc = s.pc ∧ v.sp = s.sp

/-- R134, R135 (derived: D4 for the words): 3XKK and 4XKK add 2 to the advanced PC when the register equals, or differs
from, the constant. -/
def Obligations.SkipOnConstant : Prop :=
  ∀ (x : RegIx) (kk : Byte) (s : State),
    decodeWord (0x3#4 ++ x ++ kk) = .ok (.seKk x kk) ∧ decodeWord (0x4#4 ++ x ++ kk) = .ok (.sneKk x kk) ∧
    (∃ t, exec (.seKk x kk) s = .next t ∧ Completed t ∧ PcOnly s t ∧
      t.pc.toNat = (s.pc.toNat + if s.readV x = kk then 2 else 0) % 65536) ∧
    (∃ t, exec (.sneKk x kk) s = .next t ∧ Completed t ∧ PcOnly s t ∧
      t.pc.toNat = (s.pc.toNat + if s.readV x = kk then 0 else 2) % 65536)

/-- R136, R137 (derived: D4 for the words): 5XY0 and 9XY0 add 2 to the advanced PC when the registers are equal, or
differ. -/
def Obligations.SkipOnRegister : Prop :=
  ∀ (x y : RegIx) (s : State),
    decodeWord (0x5#4 ++ x ++ y ++ 0x0#4) = .ok (.seVy x y) ∧ decodeWord (0x9#4 ++ x ++ y ++ 0x0#4) = .ok (.sneVy x y) ∧
    (∃ t, exec (.seVy x y) s = .next t ∧ Completed t ∧ PcOnly s t ∧
      t.pc.toNat = (s.pc.toNat + if s.readV x = s.readV y then 2 else 0) % 65536) ∧
    (∃ t, exec (.sneVy x y) s = .next t ∧ Completed t ∧ PcOnly s t ∧
      t.pc.toNat = (s.pc.toNat + if s.readV x = s.readV y then 0 else 2) % 65536)

/-- R138 (derived: D4, D18). BNNN jumps to its address plus V0, which is stored as it is, 0x1000 and above too. -/
def Obligations.OffsetJumpAddsV0 : Prop :=
  ∀ (nnn : Addr12) (s : State),
    decodeWord (0xB#4 ++ nnn) = .ok (.jpV0 nnn) ∧
    ∃ t, exec (.jpV0 nnn) s = .next t ∧ Completed t ∧ PcOnly s t ∧ t.pc.toNat = nnn.toNat + (s.readV 0x0#4).toNat

/-! ## Loads and arithmetic -/

/-- R150, R152 (derived: D4 for the words): 6XKK and 8XY0 load a constant and a register; no flag. -/
def Obligations.LoadsOfConstantAndRegister : Prop :=
  ∀ (x y : RegIx) (kk : Byte) (s : State),
    decodeWord (0x6#4 ++ x ++ kk) = .ok (.ldKk x kk) ∧ decodeWord (0x8#4 ++ x ++ y ++ 0x0#4) = .ok (.ldVy x y) ∧
    (∃ t, exec (.ldKk x kk) s = .next t ∧ Completed t ∧ t.pc = s.pc ∧ RegsAndPcOnly s t ∧ SameRegsBut x s t ∧
      t.readV x = kk) ∧
    (∃ t, exec (.ldVy x y) s = .next t ∧ Completed t ∧ t.pc = s.pc ∧ RegsAndPcOnly s t ∧ SameRegsBut x s t ∧
      t.readV x = s.readV y)

/-- R151 (derived: D17, no carry; the source shows 0x7001). 7XKK adds a constant modulo 256 and writes no flag. -/
def Obligations.AddConstantWritesNoFlag : Prop :=
  ∀ (x : RegIx) (kk : Byte) (s : State),
    decodeWord (0x7#4 ++ x ++ kk) = .ok (.addKk x kk) ∧
    ∃ t, exec (.addKk x kk) s = .next t ∧ Completed t ∧ t.pc = s.pc ∧ RegsAndPcOnly s t ∧ SameRegsBut x s t ∧
      (t.readV x).toNat = ((s.readV x).toNat + kk.toNat) % 256

/-- R153, R154, R155 (derived: D4, and D17, VF is not reset). 8XY1, 8XY2, 8XY3 bit by bit; no flag. -/
def Obligations.BitwiseOperationsBitByBit : Prop :=
  ∀ (x y : RegIx) (s : State),
    decodeWord (0x8#4 ++ x ++ y ++ 0x1#4) = .ok (.orVy x y) ∧ decodeWord (0x8#4 ++ x ++ y ++ 0x2#4) = .ok (.andVy x y) ∧
    decodeWord (0x8#4 ++ x ++ y ++ 0x3#4) = .ok (.xorVy x y) ∧
    (∃ t, exec (.orVy x y) s = .next t ∧ Completed t ∧ t.pc = s.pc ∧ RegsAndPcOnly s t ∧ SameRegsBut x s t ∧
      ∀ k, (t.readV x).getLsbD k = ((s.readV x).getLsbD k || (s.readV y).getLsbD k)) ∧
    (∃ t, exec (.andVy x y) s = .next t ∧ Completed t ∧ t.pc = s.pc ∧ RegsAndPcOnly s t ∧ SameRegsBut x s t ∧
      ∀ k, (t.readV x).getLsbD k = ((s.readV x).getLsbD k && (s.readV y).getLsbD k)) ∧
    (∃ t, exec (.xorVy x y) s = .next t ∧ Completed t ∧ t.pc = s.pc ∧ RegsAndPcOnly s t ∧ SameRegsBut x s t ∧
      ∀ k, (t.readV x).getLsbD k = ((s.readV x).getLsbD k ^^ (s.readV y).getLsbD k))

/-- R156 (derived: D4 for the words): 8XY4 writes the sum modulo 256, then the carry to VF, last: with x = 15 VF is the
carry. -/
def Obligations.AddRegistersSetsCarry : Prop :=
  ∀ (x y : RegIx) (s : State),
    decodeWord (0x8#4 ++ x ++ y ++ 0x4#4) = .ok (.addVy x y) ∧
    ∃ t, exec (.addVy x y) s = .next t ∧ Completed t ∧ t.pc = s.pc ∧ RegsAndPcOnly s t ∧
      (t.readV 0xF#4).toNat = (if 256 ≤ (s.readV x).toNat + (s.readV y).toNat then 1 else 0) ∧
      (x ≠ 0xF#4 → (t.readV x).toNat = ((s.readV x).toNat + (s.readV y).toNat) % 256) ∧
      (∀ r, r ≠ x → r ≠ 0xF#4 → t.readV r = s.readV r)

/-- R157, R159, R162 (derived: D4, and D16, the polarity). 8XY5 and 8XY7 write the difference modulo 256, then 1 to VF
when there is no borrow and 0 when there is, last. -/
def Obligations.SubtractionsSetNoBorrow : Prop :=
  ∀ (x y : RegIx) (s : State),
    decodeWord (0x8#4 ++ x ++ y ++ 0x5#4) = .ok (.subVy x y) ∧ decodeWord (0x8#4 ++ x ++ y ++ 0x7#4) = .ok (.subnVy x y) ∧
    (∃ t, exec (.subVy x y) s = .next t ∧ Completed t ∧ t.pc = s.pc ∧ RegsAndPcOnly s t ∧
      (t.readV 0xF#4).toNat = (if (s.readV y).toNat ≤ (s.readV x).toNat then 1 else 0) ∧
      (x ≠ 0xF#4 → ((t.readV x).toNat : Int) = ((s.readV x).toNat - (s.readV y).toNat : Int) % 256) ∧
      (∀ r, r ≠ x → r ≠ 0xF#4 → t.readV r = s.readV r)) ∧
    (∃ t, exec (.subnVy x y) s = .next t ∧ Completed t ∧ t.pc = s.pc ∧ RegsAndPcOnly s t ∧
      (t.readV 0xF#4).toNat = (if (s.readV x).toNat ≤ (s.readV y).toNat then 1 else 0) ∧
      (x ≠ 0xF#4 → ((t.readV x).toNat : Int) = ((s.readV y).toNat - (s.readV x).toNat : Int) % 256) ∧
      (∀ r, r ≠ x → r ≠ 0xF#4 → t.readV r = s.readV r))

/-- R158, R160 (derived: D4, and D2 for the source register). 8XY6 and 8XYE shift the register `CFG.shift_src` names by
one, then write the bit shifted out to VF, last. -/
def Obligations.ShiftsPutTheBitOutInVf : Prop :=
  ∀ (x y : RegIx) (s : State) (a : Byte), a = (if s.cfg.shiftSrc = .vy then s.readV y else s.readV x) →
    decodeWord (0x8#4 ++ x ++ y ++ 0x6#4) = .ok (.shr x y) ∧ decodeWord (0x8#4 ++ x ++ y ++ 0xE#4) = .ok (.shl x y) ∧
    (∃ t, exec (.shr x y) s = .next t ∧ Completed t ∧ t.pc = s.pc ∧ RegsAndPcOnly s t ∧
      (t.readV 0xF#4).toNat = a.toNat % 2 ∧ (x ≠ 0xF#4 → (t.readV x).toNat = a.toNat / 2) ∧
      (∀ r, r ≠ x → r ≠ 0xF#4 → t.readV r = s.readV r)) ∧
    (∃ t, exec (.shl x y) s = .next t ∧ Completed t ∧ t.pc = s.pc ∧ RegsAndPcOnly s t ∧
      (t.readV 0xF#4).toNat = a.toNat / 128 ∧ (x ≠ 0xF#4 → (t.readV x).toNat = 2 * a.toNat % 256) ∧
      (∀ r, r ≠ x → r ≠ 0xF#4 → t.readV r = s.readV r))

/-- R161, R33 (derived: D4, general knowledge, and D28). CXKK writes the draw of this step event masked with kk,
whatever the draw is; so no bit that kk has clear is ever set. -/
def Obligations.RandomLoadIsMasked : Prop :=
  ∀ (x : RegIx) (kk : Byte) (s : State),
    decodeWord (0xC#4 ++ x ++ kk) = .ok (.rnd x kk) ∧
    ∃ t, exec (.rnd x kk) s = .next t ∧ Completed t ∧ t.pc = s.pc ∧ RegsAndPcOnly s t ∧ SameRegsBut x s t ∧
      ∀ k, (t.readV x).getLsbD k = (s.stimulus.rnd.getLsbD k && kk.getLsbD k)

/-! ## Index register and memory -/

/-- R170 (0xA200 is one of the source's words): ANNN loads I with its address, under either width of I. -/
def Obligations.LoadIndexConstant : Prop :=
  ∀ (nnn : Addr12) (s : State),
    decodeWord (0xA#4 ++ nnn) = .ok (.ldI nnn) ∧
    ∃ t, exec (.ldI nnn) s = .next t ∧ Completed t ∧ t.pc = s.pc ∧ t.i.toNat = nnn.toNat ∧
      SameRegs s t ∧ SameStack s t ∧ SameTimers s t ∧ SameMemory s t ∧ SameScreen s t ∧ SameStatus s t ∧ SameOutside s t

/-- R171, R176 (derived: D4, D1, D17). FX1E adds a register to I modulo 65536, or 4096 when I is masked; no flag. -/
def Obligations.AddToIndexWritesNoFlag : Prop :=
  ∀ (x : RegIx) (s : State),
    decodeWord (0xF#4 ++ x ++ 0x1E#8) = .ok (.addI x) ∧
    ∃ t, exec (.addI x) s = .next t ∧ Completed t ∧ t.pc = s.pc ∧
      t.i.toNat = (s.i.toNat + (s.readV x).toNat) % (if s.cfg.iMask12 = true then 4096 else 65536) ∧
      SameRegs s t ∧ SameStack s t ∧ SameTimers s t ∧ SameMemory s t ∧ SameScreen s t ∧ SameStatus s t ∧ SameOutside s t

/-- R172, R72 (derived: D4, D15, D20). FX29 loads I with the address of the glyph of the register's low digit. -/
def Obligations.GlyphAddressOfLowDigit : Prop :=
  ∀ (x : RegIx) (s : State),
    decodeWord (0xF#4 ++ x ++ 0x29#8) = .ok (.ldF x) ∧
    ∃ t, exec (.ldF x) s = .next t ∧ Completed t ∧ t.pc = s.pc ∧ t.i.toNat = 0x050 + 5 * ((s.readV x).toNat % 16) ∧
      SameRegs s t ∧ SameStack s t ∧ SameTimers s t ∧ SameMemory s t ∧ SameScreen s t ∧ SameStatus s t ∧ SameOutside s t

/-- R173 (derived: D4, and the order of the digits is general knowledge). FX33 stores hundreds, tens and ones of a
register at I, I + 1, I + 2, each address taken on its own; I and every other byte stay. -/
def Obligations.BcdStoresThreeDigits : Prop :=
  ∀ (x : RegIx) (s : State), InReach s 3 →
    decodeWord (0xF#4 ++ x ++ 0x33#8) = .ok (.ldB x) ∧
    ∃ t, exec (.ldB x) s = .next t ∧ Completed t ∧ t.pc = s.pc ∧
      (t.readByte (s.i.toNat % 4096)).toNat = (s.readV x).toNat / 100 ∧
      (t.readByte ((s.i.toNat + 1) % 4096)).toNat = (s.readV x).toNat / 10 % 10 ∧
      (t.readByte ((s.i.toNat + 2) % 4096)).toNat = (s.readV x).toNat % 10 ∧ SameMemoryBut s.i.toNat 3 s t ∧
      SameRegs s t ∧ SameIndex s t ∧ SameStack s t ∧ SameTimers s t ∧ SameScreen s t ∧ SameStatus s t ∧ SameOutside s t

/-- R174 (derived: D4, D3, and the range is general knowledge). FX55 stores V0 to Vx at I and up, each address taken on
its own; I moves only when `CFG.ldst_inc` is set. -/
def Obligations.StoreRegistersFromI : Prop :=
  ∀ (x : RegIx) (s : State), InReach s (x.toNat + 1) →
    decodeWord (0xF#4 ++ x ++ 0x55#8) = .ok (.storeRegs x) ∧
    ∃ t, exec (.storeRegs x) s = .next t ∧ Completed t ∧ t.pc = s.pc ∧
      (∀ r : RegIx, r.toNat ≤ x.toNat → t.readByte ((s.i.toNat + r.toNat) % 4096) = s.readV r) ∧
      SameMemoryBut s.i.toNat (x.toNat + 1) s t ∧
      t.i.toNat = (if s.cfg.ldstInc = true
        then (s.i.toNat + x.toNat + 1) % (if s.cfg.iMask12 = true then 4096 else 65536) else s.i.toNat) ∧
      SameRegs s t ∧ SameStack s t ∧ SameTimers s t ∧ SameScreen s t ∧ SameStatus s t ∧ SameOutside s t

/-- R175 (derived: D4, D3). FX65 loads V0 to Vx from I and up; the registers above Vx and every byte stay; I moves only
when `CFG.ldst_inc` is set. -/
def Obligations.LoadRegistersFromI : Prop :=
  ∀ (x : RegIx) (s : State), InReach s (x.toNat + 1) →
    decodeWord (0xF#4 ++ x ++ 0x65#8) = .ok (.loadRegs x) ∧
    ∃ t, exec (.loadRegs x) s = .next t ∧ Completed t ∧ t.pc = s.pc ∧
      (∀ r : RegIx, t.readV r =
        if r.toNat ≤ x.toNat then s.readByte ((s.i.toNat + r.toNat) % 4096) else s.readV r) ∧
      t.i.toNat = (if s.cfg.ldstInc = true
        then (s.i.toNat + x.toNat + 1) % (if s.cfg.iMask12 = true then 4096 else 65536) else s.i.toNat) ∧
      SameMemory s t ∧ SameStack s t ∧ SameTimers s t ∧ SameScreen s t ∧ SameStatus s t ∧ SameOutside s t

/-- R118, R119, R173, R174, R175, R181 (derived: D22, D23, D26). Under StrictBounds the memory instructions raise
OutOfBounds for the first address outside, with their tag, and change nothing. -/
def Obligations.MemoryErrorsNameTheFirstAddress : Prop :=
  ∀ (s : State) (x y : RegIx) (n : BitVec 4) (k : Nat),
    (FirstOutOfReach s n.toNat k → ∃ t, exec (.drw x y n) s = .next t ∧ t.pc = s.pc ∧
      AfterError (.outOfBounds .memRead (s.i.toNat + k)) s t) ∧
    (FirstOutOfReach s 3 k → ∃ t, exec (.ldB x) s = .next t ∧ t.pc = s.pc ∧
      AfterError (.outOfBounds .memWrite (s.i.toNat + k)) s t) ∧
    (FirstOutOfReach s (x.toNat + 1) k → ∃ t, exec (.storeRegs x) s = .next t ∧ t.pc = s.pc ∧
      AfterError (.outOfBounds .memWrite (s.i.toNat + k)) s t) ∧
    (FirstOutOfReach s (x.toNat + 1) k → ∃ t, exec (.loadRegs x) s = .next t ∧ t.pc = s.pc ∧
      AfterError (.outOfBounds .memRead (s.i.toNat + k)) s t)

/-- R75, R293 (derived: D32). What FX55 stores is what the very next fetch reads: two registers stored side by side are
the word fetched from their addresses. -/
def Obligations.StoreIsSeenByTheNextFetch : Prop :=
  ∀ (x r q : RegIx) (s t : State), q.toNat = r.toNat + 1 → q.toNat ≤ x.toNat → InReach s (x.toNat + 1) →
    s.i.toNat + r.toNat < 65536 → exec (.storeRegs x) s = .next t →
    (t.jump (BitVec.ofNat 16 (s.i.toNat + r.toNat))).fetch = .ok (s.readV r ++ s.readV q)

/-! ## Display -/

/-- R180, R115 (derived: D4 for the word, D29): 00E0 clears all 2048 pixels and changes nothing else, VF included;
`fb_changed` is reported when a pixel was set. -/
def Obligations.ClearScreen : Prop :=
  ∀ s : State,
    decodeWord 0x00E0#16 = .ok .cls ∧
    ∃ t fx, exec .cls s = .next t ∧ t.outcome = some (.ok fx) ∧ t.pc = s.pc ∧ (∀ q c, t.fb.pixel q c = false) ∧
      ((∃ q c, s.fb.pixel q c = true) → fx.fbChanged = true) ∧ (fx.soundActive = true ↔ 0 < s.st.toNat) ∧
      SameRegs s t ∧ SameIndex s t ∧ SameStack s t ∧ SameTimers s t ∧ SameMemory s t ∧ SameStatus s t ∧ SameOutside s t

/-- R181, R182, R184 (derived: D4, D21, D22, and R184's derivation that no pixel is visited twice). DXYN XORs the n
bytes at I into the screen at the old `V[x]`, `V[y]`, per pixel and wrapping in both axes; VF is 1 exactly when a set
pixel lay under a 1 bit, and 0 otherwise, with n = 0 too. -/
def Obligations.DrawXorsTheSpriteAndReportsCollision : Prop :=
  ∀ (x y : RegIx) (n : BitVec 4) (s : State), InReach s n.toNat →
    decodeWord (0xD#4 ++ x ++ y ++ n) = .ok (.drw x y n) ∧
    ∃ t fx, exec (.drw x y n) s = .next t ∧ t.outcome = some (.ok fx) ∧ t.pc = s.pc ∧
      (∀ q c, DrwCovers s x y n q c → t.fb.pixel q c = !s.fb.pixel q c) ∧
      (∀ q c, ¬ DrwCovers s x y n q c → t.fb.pixel q c = s.fb.pixel q c) ∧
      ((∃ q c, DrwCovers s x y n q c) → fx.fbChanged = true) ∧ (fx.soundActive = true ↔ 0 < s.st.toNat) ∧
      ((∃ q c, DrwCovers s x y n q c ∧ s.fb.pixel q c = true) → t.readV 0xF#4 = 0x01#8) ∧
      ((∀ q c, DrwCovers s x y n q c → s.fb.pixel q c = false) → t.readV 0xF#4 = 0x00#8) ∧
      SameRegsBut 0xF#4 s t ∧ SameIndex s t ∧ SameStack s t ∧ SameTimers s t ∧ SameMemory s t ∧ SameStatus s t ∧
      SameOutside s t

/-- R184: "Sprite draw is its own inverse" (derived: R184's condition on the collision of the second draw). -/
def Obligations.DrawingTwiceRestoresTheScreen : Prop :=
  ∀ (x0 y0 : Nat) (rows : List Byte) (g : Grid), rows.length ≤ 15 →
    (drawSprite x0 y0 rows (drawSprite x0 y0 rows g).1).1 = g ∧
    ((drawSprite x0 y0 rows (drawSprite x0 y0 rows g).1).2 = true ↔
      ∃ q c, SpriteOver (fun r => rows.getD r 0x00#8) rows.length x0 y0 q c ∧ g.pixel q c = false)

/-- R183 (derived: its consequence that the starting coordinates may be reduced first). Coordinates wrap in both axes:
column 64 and row 32 are column 0 and row 0. -/
def Obligations.DrawCoordinatesWrap : Prop :=
  ∀ (x0 y0 : Nat) (rows : List Byte) (g : Grid),
    drawSprite x0 y0 rows g = drawSprite (x0 % 64) (y0 % 32) rows g

/-! ## Timers and keys -/

/-- R200, R201, R202 (derived: D4 for the words): the moves between a register and the timers; the sound output follows
ST at once. -/
def Obligations.TimerMoves : Prop :=
  ∀ (x : RegIx) (s : State),
    decodeWord (0xF#4 ++ x ++ 0x07#8) = .ok (.ldVxDt x) ∧ decodeWord (0xF#4 ++ x ++ 0x15#8) = .ok (.ldDt x) ∧
    decodeWord (0xF#4 ++ x ++ 0x18#8) = .ok (.ldSt x) ∧
    (∃ t, exec (.ldVxDt x) s = .next t ∧ Completed t ∧ t.pc = s.pc ∧ RegsAndPcOnly s t ∧ SameRegsBut x s t ∧
      t.readV x = s.dt) ∧
    (∃ t, exec (.ldDt x) s = .next t ∧ Completed t ∧ t.pc = s.pc ∧ t.dt = s.readV x ∧ t.st = s.st ∧
      SameRegs s t ∧ SameIndex s t ∧ SameStack s t ∧ SameMemory s t ∧ SameScreen s t ∧ SameStatus s t ∧
      SameOutside s t) ∧
    (∃ t, exec (.ldSt x) s = .next t ∧ Completed t ∧ t.pc = s.pc ∧ t.st = s.readV x ∧ t.dt = s.dt ∧
      (t.soundActive = true ↔ 0 < (s.readV x).toNat) ∧
      SameRegs s t ∧ SameIndex s t ∧ SameStack s t ∧ SameMemory s t ∧ SameScreen s t ∧ SameStatus s t ∧ SameOutside s t)

/-- R203, R204, R206 (derived: D4, and D20, the low 4 bits). EX9E and EXA1 add 2 to the advanced PC when the key is
held, or is not, at the one read of KEYS; the statement holds for every value the read answers. -/
def Obligations.SkipOnKey : Prop :=
  ∀ (x : RegIx) (s : State),
    decodeWord (0xE#4 ++ x ++ 0x9E#8) = .ok (.skp x) ∧ decodeWord (0xE#4 ++ x ++ 0xA1#8) = .ok (.sknp x) ∧
    (∃ t, exec (.skp x) s = .next t ∧ Completed t ∧ PcOnly s t ∧
      t.pc.toNat =
        (s.pc.toNat + if s.stimulus.keys.getLsbD ((s.readV x).toNat % 16) = true then 2 else 0) % 65536) ∧
    (∃ t, exec (.sknp x) s = .next t ∧ Completed t ∧ PcOnly s t ∧
      t.pc.toNat =
        (s.pc.toNat + if s.stimulus.keys.getLsbD ((s.readV x).toNat % 16) = true then 0 else 2) % 65536)

/-- R205, R117 (derived: D4, and D19, the lowest held key). FX0A with no key held goes back to its own address with the
outcome WaitingForKey and changes nothing else; with keys held it loads the number of the lowest one. The statement
holds for every value the one read of KEYS answers. -/
def Obligations.KeyWaitCompletesOrWaits : Prop :=
  ∀ (x : RegIx) (s : State),
    decodeWord (0xF#4 ++ x ++ 0x0A#8) = .ok (.ldVxK x) ∧
    (s.stimulus.keys = 0x0000#16 → ∃ t, exec (.ldVxK x) s = .next t ∧ t.outcome = some .waitingForKey ∧
      t.pc = s.pc - 2#16 ∧ PcOnly s t) ∧
    (∀ k : Nat, k < 16 → s.stimulus.keys.getLsbD k = true → (∀ j < k, s.stimulus.keys.getLsbD j = false) →
      ∃ t, exec (.ldVxK x) s = .next t ∧ Completed t ∧ t.pc = s.pc ∧ RegsAndPcOnly s t ∧ SameRegsBut x s t ∧
        (t.readV x).toNat = k)

/-- R256: a tick takes 1 off each counter that is not 0, and changes nothing else. -/
def Obligations.TickCountsDownToZero : Prop :=
  ∀ s : State, s.tick.dt.toNat = s.dt.toNat - 1 ∧ s.tick.st.toNat = s.st.toNat - 1 ∧ s.tick.pc = s.pc ∧
    s.tick.outcome = s.outcome ∧ SameRegs s s.tick ∧ SameIndex s s.tick ∧ SameStack s s.tick ∧ SameMemory s s.tick ∧
    SameScreen s s.tick ∧ SameStatus s s.tick ∧ SameOutside s s.tick

/-! ## Reset, the host and the sequencer -/

/-- R38, R280, R72 (derived: D14 for every value but PC, D15 for the font; the empty log of suppressed errors is the
model's choice, notes/assumptions/8.md; the straps of `State.reset` are notes/assumptions/1.md). What reset leaves, for
every configuration; the font byte by byte, the glyph of digit d at 0x050 + 5 d. -/
def Obligations.ResetLeavesThisState : Prop :=
  ∀ (cfg : Cfg) (s : State), s = State.resetWith cfg →
    s.pc = 0x200#16 ∧ (∀ r, s.readV r = 0x00#8) ∧ s.i = 0x0000#16 ∧ s.sp.val = 0 ∧
    (∀ k (h : k < 16), s.stk[k] = 0x0000#16) ∧
    s.dt = 0x00#8 ∧ s.st = 0x00#8 ∧ s.soundActive = false ∧ (∀ q c, s.fb.pixel q c = false) ∧
    (∀ a, (a < 0x050 ∨ 0x0A0 ≤ a) → s.readByte a = 0x00#8) ∧
    (List.range 16).map (fun d => (List.range 5).map (fun k => (s.readByte (0x050 + 5 * d + k)).toNat)) =
      [[0xF0, 0x90, 0x90, 0x90, 0xF0], [0x20, 0x60, 0x20, 0x20, 0x70], [0xF0, 0x10, 0xF0, 0x80, 0xF0],
       [0xF0, 0x10, 0xF0, 0x10, 0xF0], [0x90, 0x90, 0xF0, 0x10, 0x10], [0xF0, 0x80, 0xF0, 0x10, 0xF0],
       [0xF0, 0x80, 0xF0, 0x90, 0xF0], [0xF0, 0x10, 0x20, 0x40, 0x40], [0xF0, 0x90, 0xF0, 0x90, 0xF0],
       [0xF0, 0x90, 0xF0, 0x10, 0xF0], [0xF0, 0x90, 0xF0, 0x90, 0x90], [0xE0, 0x90, 0xE0, 0x90, 0xE0],
       [0xF0, 0x80, 0x80, 0x80, 0xF0], [0xE0, 0x90, 0x90, 0x90, 0xE0], [0xF0, 0x80, 0xF0, 0x80, 0xF0],
       [0xF0, 0x80, 0xF0, 0x80, 0x80]] ∧
    s.halted = false ∧ s.err = none ∧ s.errLog = [] ∧ s.accT = 0 ∧ s.accC = 0 ∧ s.cfg = cfg

/-- R71, R245 (derived: D34, notes/assumptions/10.md, for when a load is accepted): a load of at most 3584 bytes before
the first step writes them from 0x200 up and changes no register and no other byte; a longer one fails with RomTooLarge
and its length. -/
def Obligations.RomLoadWritesFrom0x200 : Prop :=
  ∀ (bytes : List Byte) (s : State), s.eventNo = 0 →
    (3584 < bytes.length → loadRom bytes s = .fault (.romTooLarge bytes.length)) ∧
    (bytes.length ≤ 3584 → ∃ t, loadRom bytes s = .next t ∧
      (∀ a, t.readByte a =
        if 0x200 ≤ a ∧ a < 0x200 + bytes.length then bytes.getD (a - 0x200) 0x00#8 else s.readByte a) ∧
      t.pc = s.pc ∧ SameRegs s t ∧ SameIndex s t ∧ SameStack s t ∧ SameTimers s t ∧ SameScreen s t ∧ SameStatus s t ∧
      t.cfg = s.cfg ∧ t.accT = s.accT ∧ t.accC = s.accC)

/-- R5, R8, R280 (derived: the straps are fields of the state, notes/assumptions/1.md): no instruction and no port
event other than reset changes a strap, and a boot leaves those it was given. -/
def Obligations.StrapsNeverChange : Prop :=
  (∀ s t : State, step s = .next t → t.cfg = s.cfg) ∧ (∀ s : State, s.tick.cfg = s.cfg) ∧
  (∀ (m : BitVec 16) (s : State), (s.setKeys m).cfg = s.cfg) ∧
  (∀ (bytes : List Byte) (s t : State), loadRom bytes s = .next t → t.cfg = s.cfg) ∧
  (∀ (dt : Rat) (order : List SeqEvent) (s t : State) (r : FrameResult),
    advance dt order s = .next (t, r) → t.cfg = s.cfg) ∧
  (∀ (cfg : Cfg) (bytes : List Byte) (t : State), boot cfg bytes = .next t → t.cfg = cfg)

/-- The invariant of Safety.lean (derived: the model's own form of R23, R35, R242, R248, R249, R251, and the canonical
form of memory): every step keeps it, from every state that has it. -/
def Obligations.StepKeepsTheInvariant : Prop := ∀ s t : State, s.Inv → step s = .next t → t.Inv

/-- The invariant holds after reset, for every configuration (derived: R38, the model's own form of the state). -/
def Obligations.ResetHasTheInvariant : Prop := ∀ cfg : Cfg, (State.resetWith cfg).Inv

/-- R260, R36 (derived: D37, exact time). An advance that is carried out has paid for exactly its ticks and its steps:
what it carries forward is less than one period of each clock and not negative. -/
def Obligations.AdvanceCarriesLessThanAPeriod : Prop :=
  ∀ (dt : Rat) (order : List SeqEvent) (s t : State) (r : FrameResult), 0 ≤ s.accT → 0 ≤ s.accC →
    advance dt order s = .next (t, r) →
    s.accT + dt = (order.count .tick : Rat) / s.cfg.timerHz + t.accT ∧ 0 ≤ t.accT ∧ t.accT < 1 / s.cfg.timerHz ∧
    s.accC + dt = (order.count .step : Rat) / s.cfg.cpuHz + t.accC ∧ 0 ≤ t.accC ∧ t.accC < 1 / s.cfg.cpuHz

/-- R260, R261, R263, R9 (derived: D31, every interleaving; D38; the order as an argument is the model's choice,
notes/assumptions/11.md). For every elapsed time and every order of the events it pays for, `advance` carries the order
out, and its FrameResult reports the sound level at the end and what the steps of the order answered, one each. -/
def Obligations.AdvanceRunsEveryInterleaving : Prop :=
  ∀ (dt : Rat) (order : List SeqEvent) (s : State), s.cfg.ok = true → 0 ≤ dt →
    order.count .tick = ticksDue s dt → order.count .step = stepsDue s dt →
    ∃ t r os, advance dt order s = .next (t, r) ∧
      runEvents order { s with accT := carryOver (s.accT + dt) s.cfg.timerHz
                               accC := carryOver (s.accC + dt) s.cfg.cpuHz } = .next (t, os) ∧
      os.length = order.count .step ∧ r.soundActive = t.soundActive ∧ r.executed ≤ order.count .step ∧
      r.Reports s.cfg.errPolicy os

/-- R249, R256 (derived: D27). While the CPU is halted the ticks still count down and the steps change nothing, in
every order of the events. -/
def Obligations.TimersRunWhileHalted : Prop :=
  ∀ (order : List SeqEvent) (s : State), s.halted = true → ∃ t os, runEvents order s = .next (t, os) ∧
    t.dt.toNat = s.dt.toNat - order.count .tick ∧ t.st.toNat = s.st.toNat - order.count .tick ∧
    os = List.replicate (order.count .step) (.halted s.err) ∧ t.pc = s.pc ∧
    SameRegs s t ∧ SameIndex s t ∧ SameStack s t ∧ SameMemory s t ∧ SameScreen s t ∧ SameStatus s t

/-- R8, R32 (derived: D4 for EX9E, D20, D36; that the value is the one the coming step event reads, and that later
events have their own, is the model's choice, notes/assumptions/2.md and 4.md). `set_keys(m)` changes nothing but what
the coming read of KEYS answers, and an EX9E at PC skips exactly when `m` holds its key. -/
def Obligations.SetKeysAnswersTheComingRead : Prop :=
  ∀ (m : BitVec 16) (s t : State), t = s.setKeys m →
    t.keys = m ∧ t.rnd = s.rnd ∧ t.stimulus.ticks = s.stimulus.ticks ∧ t.stimulus.fbHint = s.stimulus.fbHint ∧
    t.nextEvent = s.nextEvent ∧ t.pc = s.pc ∧ t.outcome = s.outcome ∧
    SameRegs s t ∧ SameIndex s t ∧ SameStack s t ∧ SameTimers s t ∧ SameMemory s t ∧ SameScreen s t ∧ SameStatus s t ∧
    t.cfg = s.cfg ∧ t.accT = s.accT ∧ t.accC = s.accC ∧
    ∀ (w : Word) (x : RegIx), s.halted = false → s.fetch = .ok w → decodeWord w = .ok (.skp x) →
      ∃ u, step t = .next u ∧
        u.pc.toNat = (s.pc.toNat + if m.getLsbD ((s.readV x).toNat % 16) = true then 4 else 2) % 65536
end

