-- ==== Sys2Proof/Laws/Memory.lean ====
section
/-! SUPPORT. The laws of memory: a read after a write, and that every memory operation keeps the canonical form. -/

namespace Sys2Proof.Machine

theorem Memory.read_unlist (m : Memory) (a b : Nat) :
    (m.unlist a).read b = if b = a then unlisted a else m.read b := by
  induction m with
  | nil => simp only [Memory.unlist, Memory.read]; split <;> simp_all
  | cons c m ih =>
    obtain ⟨k, w⟩ := c
    simp only [Memory.unlist]
    split
    · simp only [ih, Memory.read]; split <;> simp_all
    · simp only [Memory.read, ih]; split <;> split <;> simp_all

theorem Memory.read_enlist (m : Memory) (a b : Nat) (x : Byte) :
    (m.enlist a x).read b = if b = a then x else m.read b := by
  induction m with
  | nil => simp [Memory.enlist, Memory.read]
  | cons c m ih =>
    obtain ⟨k, w⟩ := c
    simp only [Memory.enlist]
    split
    · simp [Memory.read]
    · split
      · simp only [Memory.read]; split <;> simp_all
      · simp only [Memory.read, ih]; split <;> split <;> simp_all

/-- A byte read after a write of one: the value written at its address, and what was there before anywhere else. -/
@[simp] theorem Memory.read_write (m : Memory) (a b : Nat) (x : Byte) :
    (m.write a x).read b = if b = a then x else m.read b := by
  unfold Memory.write
  split
  · rw [Memory.read_unlist]; simp_all
  · exact Memory.read_enlist m a b x

theorem Memory.wfFrom_mono {lo lo' : Nat} (h : lo' ≤ lo) (m : Memory) (hm : m.wfFrom lo = true) :
    m.wfFrom lo' = true := by
  cases m with
  | nil => rfl
  | cons c m =>
    obtain ⟨k, w⟩ := c
    simp only [Memory.wfFrom, Bool.and_eq_true, decide_eq_true_eq] at hm ⊢
    exact ⟨⟨⟨by omega, hm.1.1.2⟩, hm.1.2⟩, hm.2⟩

theorem Memory.wfFrom_unlist (m : Memory) (a lo : Nat) (hm : m.wfFrom lo = true) :
    (m.unlist a).wfFrom lo = true := by
  induction m generalizing lo with
  | nil => rfl
  | cons c m ih =>
    obtain ⟨k, w⟩ := c
    simp only [Memory.wfFrom, Bool.and_eq_true, decide_eq_true_eq] at hm
    simp only [Memory.unlist]
    split
    · exact Memory.wfFrom_mono (by omega) _ (ih _ hm.2)
    · simp only [Memory.wfFrom, Bool.and_eq_true, decide_eq_true_eq]
      exact ⟨hm.1, ih _ hm.2⟩

theorem Memory.wfFrom_enlist (m : Memory) (a lo : Nat) (x : Byte) (hlo : lo ≤ a) (ha : a < 4096)
    (hx : x ≠ unlisted a) (hm : m.wfFrom lo = true) : (m.enlist a x).wfFrom lo = true := by
  induction m generalizing lo with
  | nil => simp [Memory.enlist, Memory.wfFrom, hlo, ha, hx]
  | cons c m ih =>
    obtain ⟨k, w⟩ := c
    simp only [Memory.wfFrom, Bool.and_eq_true, decide_eq_true_eq] at hm
    simp only [Memory.enlist]
    split
    · simp only [Memory.wfFrom, Bool.and_eq_true, decide_eq_true_eq]
      exact ⟨⟨⟨hlo, ha⟩, hx⟩, ⟨⟨by omega, hm.1.1.2⟩, hm.1.2⟩, hm.2⟩
    · split
      · simp only [Memory.wfFrom, Bool.and_eq_true, decide_eq_true_eq]
        subst_vars
        exact ⟨⟨⟨hlo, ha⟩, hx⟩, hm.2⟩
      · simp only [Memory.wfFrom, Bool.and_eq_true, decide_eq_true_eq]
        exact ⟨hm.1, ih _ (by omega) hm.2⟩

/-- A write inside the 4096 bytes keeps the canonical form. -/
theorem Memory.wf_write (m : Memory) (a : Nat) (x : Byte) (ha : a < 4096) (hm : m.wf = true) :
    (m.write a x).wf = true := by
  unfold Memory.write
  split
  · exact Memory.wfFrom_unlist m a 0 hm
  · exact Memory.wfFrom_enlist m a 0 x (Nat.zero_le a) ha (by assumption) hm

/-- Writes inside the 4096 bytes keep the canonical form. -/
theorem Memory.wf_writeAll (m : Memory) (ws : List (Nat × Byte)) (hw : ∀ c ∈ ws, c.1 < 4096) (hm : m.wf = true) :
    (m.writeAll ws).wf = true := by
  induction ws generalizing m with
  | nil => exact hm
  | cons c ws ih =>
    obtain ⟨a, x⟩ := c
    exact ih _ (fun c hc => hw c (List.mem_cons_of_mem _ hc))
      (Memory.wf_write m a x (hw (a, x) List.mem_cons_self) hm)

/-- Writes leave every address they do not name alone. -/
theorem Memory.read_writeAll_other (m : Memory) (ws : List (Nat × Byte)) (b : Nat) (hb : ∀ c ∈ ws, c.1 ≠ b) :
    (m.writeAll ws).read b = m.read b := by
  induction ws generalizing m with
  | nil => rfl
  | cons c ws ih =>
    obtain ⟨a, x⟩ := c
    have h : b ≠ a := fun e => hb (a, x) List.mem_cons_self e.symm
    simp only [Memory.writeAll]
    rw [ih _ (fun c hc => hb c (List.mem_cons_of_mem _ hc)), Memory.read_write, if_neg h]

/-- Writes to addresses that do not repeat: each address reads as the byte written to it. -/
theorem Memory.read_writeAll_mem (m : Memory) (ws : List (Nat × Byte)) (hn : (ws.map Prod.fst).Nodup) (a : Nat)
    (x : Byte) (h : (a, x) ∈ ws) : (m.writeAll ws).read a = x := by
  induction ws generalizing m with
  | nil => cases h
  | cons c ws ih =>
    simp only [List.map_cons, List.nodup_cons] at hn
    rcases List.mem_cons.mp h with h | h
    · subst h
      simp only [Memory.writeAll]
      rw [Memory.read_writeAll_other, Memory.read_write, if_pos rfl]
      intro c hc e
      exact hn.1 (List.mem_map.mpr ⟨c, hc, e⟩)
    · exact ih _ hn.2 h

/-- Memory after reset lists nothing and is in canonical form, whatever the straps. -/
theorem State.resetWith_mem_wf (cfg : Cfg) : (State.resetWith cfg).mem.wf = true := rfl

end Sys2Proof.Machine
end

