-- ==== Sys2Proof/Laws/State.lean ====
section
/-! SUPPORT. The small lemmas of the state's updates: one per field (and per reading of the state) for each named update
of Machine/Ops.lean and Machine/Operands.lean, so that no proof unfolds a record update. Each holds by
`rfl`; the brackets make `simp` rewrite a condition together with its decision procedure. -/

namespace Sys2Proof.Machine

/-! ### `State.writeV` -/

@[simp] theorem State.writeV_i (s : State) (x : RegIx) (b : Byte) : (s.writeV x b).i = s.i := (rfl)
@[simp] theorem State.writeV_pc (s : State) (x : RegIx) (b : Byte) : (s.writeV x b).pc = s.pc := (rfl)
@[simp] theorem State.writeV_sp (s : State) (x : RegIx) (b : Byte) : (s.writeV x b).sp = s.sp := (rfl)
@[simp] theorem State.writeV_stk (s : State) (x : RegIx) (b : Byte) : (s.writeV x b).stk = s.stk := (rfl)
@[simp] theorem State.writeV_dt (s : State) (x : RegIx) (b : Byte) : (s.writeV x b).dt = s.dt := (rfl)
@[simp] theorem State.writeV_st (s : State) (x : RegIx) (b : Byte) : (s.writeV x b).st = s.st := (rfl)
@[simp] theorem State.writeV_mem (s : State) (x : RegIx) (b : Byte) : (s.writeV x b).mem = s.mem := (rfl)
@[simp] theorem State.writeV_fb (s : State) (x : RegIx) (b : Byte) : (s.writeV x b).fb = s.fb := (rfl)
@[simp] theorem State.writeV_halted (s : State) (x : RegIx) (b : Byte) : (s.writeV x b).halted = s.halted := (rfl)
@[simp] theorem State.writeV_err (s : State) (x : RegIx) (b : Byte) : (s.writeV x b).err = s.err := (rfl)
@[simp] theorem State.writeV_errLog (s : State) (x : RegIx) (b : Byte) : (s.writeV x b).errLog = s.errLog := (rfl)
@[simp] theorem State.writeV_outcome (s : State) (x : RegIx) (b : Byte) : (s.writeV x b).outcome = s.outcome := (rfl)
@[simp] theorem State.writeV_accT (s : State) (x : RegIx) (b : Byte) : (s.writeV x b).accT = s.accT := (rfl)
@[simp] theorem State.writeV_accC (s : State) (x : RegIx) (b : Byte) : (s.writeV x b).accC = s.accC := (rfl)
@[simp] theorem State.writeV_cfg (s : State) (x : RegIx) (b : Byte) : (s.writeV x b).cfg = s.cfg := (rfl)
@[simp] theorem State.writeV_stimuli (s : State) (x : RegIx) (b : Byte) : (s.writeV x b).stimuli = s.stimuli := (rfl)
@[simp] theorem State.writeV_eventNo (s : State) (x : RegIx) (b : Byte) : (s.writeV x b).eventNo = s.eventNo := (rfl)
@[simp] theorem State.writeV_readByte (s : State) (x : RegIx) (b : Byte) (a : Nat) : (s.writeV x b).readByte a = s.readByte a := (rfl)
@[simp] theorem State.writeV_stimulus (s : State) (x : RegIx) (b : Byte) : (s.writeV x b).stimulus = s.stimulus := (rfl)
@[simp] theorem State.writeV_keys (s : State) (x : RegIx) (b : Byte) : (s.writeV x b).keys = s.keys := (rfl)
@[simp] theorem State.writeV_rnd (s : State) (x : RegIx) (b : Byte) : (s.writeV x b).rnd = s.rnd := (rfl)
@[simp] theorem State.writeV_soundActive (s : State) (x : RegIx) (b : Byte) : (s.writeV x b).soundActive = s.soundActive := (rfl)
@[simp] theorem State.writeV_fetch (s : State) (x : RegIx) (b : Byte) : (s.writeV x b).fetch = s.fetch := (rfl)

/-! ### `State.writeI` -/

@[simp] theorem State.writeI_v (s : State) (n : Nat) : (s.writeI n).v = s.v := (rfl)
@[simp] theorem State.writeI_i (s : State) (n : Nat) : (s.writeI n).i = BitVec.ofNat 16 (if s.cfg.iMask12 then n % 4096 else n % 65536) := (rfl)
@[simp] theorem State.writeI_pc (s : State) (n : Nat) : (s.writeI n).pc = s.pc := (rfl)
@[simp] theorem State.writeI_sp (s : State) (n : Nat) : (s.writeI n).sp = s.sp := (rfl)
@[simp] theorem State.writeI_stk (s : State) (n : Nat) : (s.writeI n).stk = s.stk := (rfl)
@[simp] theorem State.writeI_dt (s : State) (n : Nat) : (s.writeI n).dt = s.dt := (rfl)
@[simp] theorem State.writeI_st (s : State) (n : Nat) : (s.writeI n).st = s.st := (rfl)
@[simp] theorem State.writeI_mem (s : State) (n : Nat) : (s.writeI n).mem = s.mem := (rfl)
@[simp] theorem State.writeI_fb (s : State) (n : Nat) : (s.writeI n).fb = s.fb := (rfl)
@[simp] theorem State.writeI_halted (s : State) (n : Nat) : (s.writeI n).halted = s.halted := (rfl)
@[simp] theorem State.writeI_err (s : State) (n : Nat) : (s.writeI n).err = s.err := (rfl)
@[simp] theorem State.writeI_errLog (s : State) (n : Nat) : (s.writeI n).errLog = s.errLog := (rfl)
@[simp] theorem State.writeI_outcome (s : State) (n : Nat) : (s.writeI n).outcome = s.outcome := (rfl)
@[simp] theorem State.writeI_accT (s : State) (n : Nat) : (s.writeI n).accT = s.accT := (rfl)
@[simp] theorem State.writeI_accC (s : State) (n : Nat) : (s.writeI n).accC = s.accC := (rfl)
@[simp] theorem State.writeI_cfg (s : State) (n : Nat) : (s.writeI n).cfg = s.cfg := (rfl)
@[simp] theorem State.writeI_stimuli (s : State) (n : Nat) : (s.writeI n).stimuli = s.stimuli := (rfl)
@[simp] theorem State.writeI_eventNo (s : State) (n : Nat) : (s.writeI n).eventNo = s.eventNo := (rfl)
@[simp] theorem State.writeI_readV (s : State) (n : Nat) (y : RegIx) : (s.writeI n).readV y = s.readV y := (rfl)
@[simp] theorem State.writeI_readByte (s : State) (n : Nat) (a : Nat) : (s.writeI n).readByte a = s.readByte a := (rfl)
@[simp] theorem State.writeI_stimulus (s : State) (n : Nat) : (s.writeI n).stimulus = s.stimulus := (rfl)
@[simp] theorem State.writeI_keys (s : State) (n : Nat) : (s.writeI n).keys = s.keys := (rfl)
@[simp] theorem State.writeI_rnd (s : State) (n : Nat) : (s.writeI n).rnd = s.rnd := (rfl)
@[simp] theorem State.writeI_soundActive (s : State) (n : Nat) : (s.writeI n).soundActive = s.soundActive := (rfl)
@[simp] theorem State.writeI_fetch (s : State) (n : Nat) : (s.writeI n).fetch = s.fetch := (rfl)
@[simp] theorem State.writeI_shiftOperand (s : State) (n : Nat) (y z : RegIx) : (s.writeI n).shiftOperand y z = s.shiftOperand y z := (rfl)

/-! ### `State.jump` -/

@[simp] theorem State.jump_v (s : State) (w : Word) : (s.jump w).v = s.v := (rfl)
@[simp] theorem State.jump_i (s : State) (w : Word) : (s.jump w).i = s.i := (rfl)
@[simp] theorem State.jump_pc (s : State) (w : Word) : (s.jump w).pc = w := (rfl)
@[simp] theorem State.jump_sp (s : State) (w : Word) : (s.jump w).sp = s.sp := (rfl)
@[simp] theorem State.jump_stk (s : State) (w : Word) : (s.jump w).stk = s.stk := (rfl)
@[simp] theorem State.jump_dt (s : State) (w : Word) : (s.jump w).dt = s.dt := (rfl)
@[simp] theorem State.jump_st (s : State) (w : Word) : (s.jump w).st = s.st := (rfl)
@[simp] theorem State.jump_mem (s : State) (w : Word) : (s.jump w).mem = s.mem := (rfl)
@[simp] theorem State.jump_fb (s : State) (w : Word) : (s.jump w).fb = s.fb := (rfl)
@[simp] theorem State.jump_halted (s : State) (w : Word) : (s.jump w).halted = s.halted := (rfl)
@[simp] theorem State.jump_err (s : State) (w : Word) : (s.jump w).err = s.err := (rfl)
@[simp] theorem State.jump_errLog (s : State) (w : Word) : (s.jump w).errLog = s.errLog := (rfl)
@[simp] theorem State.jump_outcome (s : State) (w : Word) : (s.jump w).outcome = s.outcome := (rfl)
@[simp] theorem State.jump_accT (s : State) (w : Word) : (s.jump w).accT = s.accT := (rfl)
@[simp] theorem State.jump_accC (s : State) (w : Word) : (s.jump w).accC = s.accC := (rfl)
@[simp] theorem State.jump_cfg (s : State) (w : Word) : (s.jump w).cfg = s.cfg := (rfl)
@[simp] theorem State.jump_stimuli (s : State) (w : Word) : (s.jump w).stimuli = s.stimuli := (rfl)
@[simp] theorem State.jump_eventNo (s : State) (w : Word) : (s.jump w).eventNo = s.eventNo := (rfl)
@[simp] theorem State.jump_readV (s : State) (w : Word) (y : RegIx) : (s.jump w).readV y = s.readV y := (rfl)
@[simp] theorem State.jump_readByte (s : State) (w : Word) (a : Nat) : (s.jump w).readByte a = s.readByte a := (rfl)
@[simp] theorem State.jump_stimulus (s : State) (w : Word) : (s.jump w).stimulus = s.stimulus := (rfl)
@[simp] theorem State.jump_keys (s : State) (w : Word) : (s.jump w).keys = s.keys := (rfl)
@[simp] theorem State.jump_rnd (s : State) (w : Word) : (s.jump w).rnd = s.rnd := (rfl)
@[simp] theorem State.jump_soundActive (s : State) (w : Word) : (s.jump w).soundActive = s.soundActive := (rfl)
@[simp] theorem State.jump_shiftOperand (s : State) (w : Word) (y z : RegIx) : (s.jump w).shiftOperand y z = s.shiftOperand y z := (rfl)

/-! ### `State.advancePc` -/

@[simp] theorem State.advancePc_v (s : State) : (s.advancePc).v = s.v := (rfl)
@[simp] theorem State.advancePc_i (s : State) : (s.advancePc).i = s.i := (rfl)
@[simp] theorem State.advancePc_pc (s : State) : (s.advancePc).pc = s.pc + 2#16 := (rfl)
@[simp] theorem State.advancePc_sp (s : State) : (s.advancePc).sp = s.sp := (rfl)
@[simp] theorem State.advancePc_stk (s : State) : (s.advancePc).stk = s.stk := (rfl)
@[simp] theorem State.advancePc_dt (s : State) : (s.advancePc).dt = s.dt := (rfl)
@[simp] theorem State.advancePc_st (s : State) : (s.advancePc).st = s.st := (rfl)
@[simp] theorem State.advancePc_mem (s : State) : (s.advancePc).mem = s.mem := (rfl)
@[simp] theorem State.advancePc_fb (s : State) : (s.advancePc).fb = s.fb := (rfl)
@[simp] theorem State.advancePc_halted (s : State) : (s.advancePc).halted = s.halted := (rfl)
@[simp] theorem State.advancePc_err (s : State) : (s.advancePc).err = s.err := (rfl)
@[simp] theorem State.advancePc_errLog (s : State) : (s.advancePc).errLog = s.errLog := (rfl)
@[simp] theorem State.advancePc_outcome (s : State) : (s.advancePc).outcome = s.outcome := (rfl)
@[simp] theorem State.advancePc_accT (s : State) : (s.advancePc).accT = s.accT := (rfl)
@[simp] theorem State.advancePc_accC (s : State) : (s.advancePc).accC = s.accC := (rfl)
@[simp] theorem State.advancePc_cfg (s : State) : (s.advancePc).cfg = s.cfg := (rfl)
@[simp] theorem State.advancePc_stimuli (s : State) : (s.advancePc).stimuli = s.stimuli := (rfl)
@[simp] theorem State.advancePc_eventNo (s : State) : (s.advancePc).eventNo = s.eventNo := (rfl)
@[simp] theorem State.advancePc_readV (s : State) (y : RegIx) : (s.advancePc).readV y = s.readV y := (rfl)
@[simp] theorem State.advancePc_readByte (s : State) (a : Nat) : (s.advancePc).readByte a = s.readByte a := (rfl)
@[simp] theorem State.advancePc_stimulus (s : State) : (s.advancePc).stimulus = s.stimulus := (rfl)
@[simp] theorem State.advancePc_keys (s : State) : (s.advancePc).keys = s.keys := (rfl)
@[simp] theorem State.advancePc_rnd (s : State) : (s.advancePc).rnd = s.rnd := (rfl)
@[simp] theorem State.advancePc_soundActive (s : State) : (s.advancePc).soundActive = s.soundActive := (rfl)
@[simp] theorem State.advancePc_shiftOperand (s : State) (y z : RegIx) : (s.advancePc).shiftOperand y z = s.shiftOperand y z := (rfl)

/-! ### `State.skipIf` -/

@[simp] theorem State.skipIf_v (s : State) (c : Bool) : (s.skipIf c).v = s.v := by
  unfold State.skipIf; split <;> rfl
@[simp] theorem State.skipIf_i (s : State) (c : Bool) : (s.skipIf c).i = s.i := by
  unfold State.skipIf; split <;> rfl
@[simp] theorem State.skipIf_pc (s : State) (c : Bool) : (s.skipIf c).pc = if c then s.pc + 2#16 else s.pc := by
  unfold State.skipIf; split <;> simp_all [State.jump]
@[simp] theorem State.skipIf_sp (s : State) (c : Bool) : (s.skipIf c).sp = s.sp := by
  unfold State.skipIf; split <;> rfl
@[simp] theorem State.skipIf_stk (s : State) (c : Bool) : (s.skipIf c).stk = s.stk := by
  unfold State.skipIf; split <;> rfl
@[simp] theorem State.skipIf_dt (s : State) (c : Bool) : (s.skipIf c).dt = s.dt := by
  unfold State.skipIf; split <;> rfl
@[simp] theorem State.skipIf_st (s : State) (c : Bool) : (s.skipIf c).st = s.st := by
  unfold State.skipIf; split <;> rfl
@[simp] theorem State.skipIf_mem (s : State) (c : Bool) : (s.skipIf c).mem = s.mem := by
  unfold State.skipIf; split <;> rfl
@[simp] theorem State.skipIf_fb (s : State) (c : Bool) : (s.skipIf c).fb = s.fb := by
  unfold State.skipIf; split <;> rfl
@[simp] theorem State.skipIf_halted (s : State) (c : Bool) : (s.skipIf c).halted = s.halted := by
  unfold State.skipIf; split <;> rfl
@[simp] theorem State.skipIf_err (s : State) (c : Bool) : (s.skipIf c).err = s.err := by
  unfold State.skipIf; split <;> rfl
@[simp] theorem State.skipIf_errLog (s : State) (c : Bool) : (s.skipIf c).errLog = s.errLog := by
  unfold State.skipIf; split <;> rfl
@[simp] theorem State.skipIf_outcome (s : State) (c : Bool) : (s.skipIf c).outcome = s.outcome := by
  unfold State.skipIf; split <;> rfl
@[simp] theorem State.skipIf_accT (s : State) (c : Bool) : (s.skipIf c).accT = s.accT := by
  unfold State.skipIf; split <;> rfl
@[simp] theorem State.skipIf_accC (s : State) (c : Bool) : (s.skipIf c).accC = s.accC := by
  unfold State.skipIf; split <;> rfl
@[simp] theorem State.skipIf_cfg (s : State) (c : Bool) : (s.skipIf c).cfg = s.cfg := by
  unfold State.skipIf; split <;> rfl
@[simp] theorem State.skipIf_stimuli (s : State) (c : Bool) : (s.skipIf c).stimuli = s.stimuli := by
  unfold State.skipIf; split <;> rfl
@[simp] theorem State.skipIf_eventNo (s : State) (c : Bool) : (s.skipIf c).eventNo = s.eventNo := by
  unfold State.skipIf; split <;> rfl
@[simp] theorem State.skipIf_readV (s : State) (c : Bool) (y : RegIx) : (s.skipIf c).readV y = s.readV y := by
  unfold State.skipIf; split <;> rfl
@[simp] theorem State.skipIf_readByte (s : State) (c : Bool) (a : Nat) : (s.skipIf c).readByte a = s.readByte a := by
  unfold State.skipIf; split <;> rfl
@[simp] theorem State.skipIf_stimulus (s : State) (c : Bool) : (s.skipIf c).stimulus = s.stimulus := by
  unfold State.skipIf; split <;> rfl
@[simp] theorem State.skipIf_keys (s : State) (c : Bool) : (s.skipIf c).keys = s.keys := by
  unfold State.skipIf; split <;> rfl
@[simp] theorem State.skipIf_rnd (s : State) (c : Bool) : (s.skipIf c).rnd = s.rnd := by
  unfold State.skipIf; split <;> rfl
@[simp] theorem State.skipIf_soundActive (s : State) (c : Bool) : (s.skipIf c).soundActive = s.soundActive := by
  unfold State.skipIf; split <;> rfl
@[simp] theorem State.skipIf_shiftOperand (s : State) (c : Bool) (y z : RegIx) : (s.skipIf c).shiftOperand y z = s.shiftOperand y z := by
  unfold State.skipIf; split <;> rfl

/-! ### `State.writeRange` -/

@[simp] theorem State.writeRange_i (s : State) (xs : List Byte) : (s.writeRange xs).i = s.i := (rfl)
@[simp] theorem State.writeRange_pc (s : State) (xs : List Byte) : (s.writeRange xs).pc = s.pc := (rfl)
@[simp] theorem State.writeRange_sp (s : State) (xs : List Byte) : (s.writeRange xs).sp = s.sp := (rfl)
@[simp] theorem State.writeRange_stk (s : State) (xs : List Byte) : (s.writeRange xs).stk = s.stk := (rfl)
@[simp] theorem State.writeRange_dt (s : State) (xs : List Byte) : (s.writeRange xs).dt = s.dt := (rfl)
@[simp] theorem State.writeRange_st (s : State) (xs : List Byte) : (s.writeRange xs).st = s.st := (rfl)
@[simp] theorem State.writeRange_mem (s : State) (xs : List Byte) : (s.writeRange xs).mem = s.mem := (rfl)
@[simp] theorem State.writeRange_fb (s : State) (xs : List Byte) : (s.writeRange xs).fb = s.fb := (rfl)
@[simp] theorem State.writeRange_halted (s : State) (xs : List Byte) : (s.writeRange xs).halted = s.halted := (rfl)
@[simp] theorem State.writeRange_err (s : State) (xs : List Byte) : (s.writeRange xs).err = s.err := (rfl)
@[simp] theorem State.writeRange_errLog (s : State) (xs : List Byte) : (s.writeRange xs).errLog = s.errLog := (rfl)
@[simp] theorem State.writeRange_outcome (s : State) (xs : List Byte) : (s.writeRange xs).outcome = s.outcome := (rfl)
@[simp] theorem State.writeRange_accT (s : State) (xs : List Byte) : (s.writeRange xs).accT = s.accT := (rfl)
@[simp] theorem State.writeRange_accC (s : State) (xs : List Byte) : (s.writeRange xs).accC = s.accC := (rfl)
@[simp] theorem State.writeRange_cfg (s : State) (xs : List Byte) : (s.writeRange xs).cfg = s.cfg := (rfl)
@[simp] theorem State.writeRange_stimuli (s : State) (xs : List Byte) : (s.writeRange xs).stimuli = s.stimuli := (rfl)
@[simp] theorem State.writeRange_eventNo (s : State) (xs : List Byte) : (s.writeRange xs).eventNo = s.eventNo := (rfl)
@[simp] theorem State.writeRange_readByte (s : State) (xs : List Byte) (a : Nat) : (s.writeRange xs).readByte a = s.readByte a := (rfl)
@[simp] theorem State.writeRange_stimulus (s : State) (xs : List Byte) : (s.writeRange xs).stimulus = s.stimulus := (rfl)
@[simp] theorem State.writeRange_keys (s : State) (xs : List Byte) : (s.writeRange xs).keys = s.keys := (rfl)
@[simp] theorem State.writeRange_rnd (s : State) (xs : List Byte) : (s.writeRange xs).rnd = s.rnd := (rfl)
@[simp] theorem State.writeRange_soundActive (s : State) (xs : List Byte) : (s.writeRange xs).soundActive = s.soundActive := (rfl)
@[simp] theorem State.writeRange_fetch (s : State) (xs : List Byte) : (s.writeRange xs).fetch = s.fetch := (rfl)

/-! ### `State.advanceI` -/

@[simp] theorem State.advanceI_v (s : State) (n : Nat) (x : RegIx) : (s.advanceI n x).v = s.v := by
  unfold State.advanceI; split <;> rfl
@[simp] theorem State.advanceI_i (s : State) (n : Nat) (x : RegIx) : (s.advanceI n x).i = if s.cfg.ldstInc then (s.writeI (n + x.toNat + 1)).i else s.i := by
  unfold State.advanceI; split <;> simp_all
@[simp] theorem State.advanceI_pc (s : State) (n : Nat) (x : RegIx) : (s.advanceI n x).pc = s.pc := by
  unfold State.advanceI; split <;> rfl
@[simp] theorem State.advanceI_sp (s : State) (n : Nat) (x : RegIx) : (s.advanceI n x).sp = s.sp := by
  unfold State.advanceI; split <;> rfl
@[simp] theorem State.advanceI_stk (s : State) (n : Nat) (x : RegIx) : (s.advanceI n x).stk = s.stk := by
  unfold State.advanceI; split <;> rfl
@[simp] theorem State.advanceI_dt (s : State) (n : Nat) (x : RegIx) : (s.advanceI n x).dt = s.dt := by
  unfold State.advanceI; split <;> rfl
@[simp] theorem State.advanceI_st (s : State) (n : Nat) (x : RegIx) : (s.advanceI n x).st = s.st := by
  unfold State.advanceI; split <;> rfl
@[simp] theorem State.advanceI_mem (s : State) (n : Nat) (x : RegIx) : (s.advanceI n x).mem = s.mem := by
  unfold State.advanceI; split <;> rfl
@[simp] theorem State.advanceI_fb (s : State) (n : Nat) (x : RegIx) : (s.advanceI n x).fb = s.fb := by
  unfold State.advanceI; split <;> rfl
@[simp] theorem State.advanceI_halted (s : State) (n : Nat) (x : RegIx) : (s.advanceI n x).halted = s.halted := by
  unfold State.advanceI; split <;> rfl
@[simp] theorem State.advanceI_err (s : State) (n : Nat) (x : RegIx) : (s.advanceI n x).err = s.err := by
  unfold State.advanceI; split <;> rfl
@[simp] theorem State.advanceI_errLog (s : State) (n : Nat) (x : RegIx) : (s.advanceI n x).errLog = s.errLog := by
  unfold State.advanceI; split <;> rfl
@[simp] theorem State.advanceI_outcome (s : State) (n : Nat) (x : RegIx) : (s.advanceI n x).outcome = s.outcome := by
  unfold State.advanceI; split <;> rfl
@[simp] theorem State.advanceI_accT (s : State) (n : Nat) (x : RegIx) : (s.advanceI n x).accT = s.accT := by
  unfold State.advanceI; split <;> rfl
@[simp] theorem State.advanceI_accC (s : State) (n : Nat) (x : RegIx) : (s.advanceI n x).accC = s.accC := by
  unfold State.advanceI; split <;> rfl
@[simp] theorem State.advanceI_cfg (s : State) (n : Nat) (x : RegIx) : (s.advanceI n x).cfg = s.cfg := by
  unfold State.advanceI; split <;> rfl
@[simp] theorem State.advanceI_stimuli (s : State) (n : Nat) (x : RegIx) : (s.advanceI n x).stimuli = s.stimuli := by
  unfold State.advanceI; split <;> rfl
@[simp] theorem State.advanceI_eventNo (s : State) (n : Nat) (x : RegIx) : (s.advanceI n x).eventNo = s.eventNo := by
  unfold State.advanceI; split <;> rfl
@[simp] theorem State.advanceI_readV (s : State) (n : Nat) (x : RegIx) (y : RegIx) : (s.advanceI n x).readV y = s.readV y := by
  unfold State.advanceI; split <;> rfl
@[simp] theorem State.advanceI_readByte (s : State) (n : Nat) (x : RegIx) (a : Nat) : (s.advanceI n x).readByte a = s.readByte a := by
  unfold State.advanceI; split <;> rfl
@[simp] theorem State.advanceI_stimulus (s : State) (n : Nat) (x : RegIx) : (s.advanceI n x).stimulus = s.stimulus := by
  unfold State.advanceI; split <;> rfl
@[simp] theorem State.advanceI_keys (s : State) (n : Nat) (x : RegIx) : (s.advanceI n x).keys = s.keys := by
  unfold State.advanceI; split <;> rfl
@[simp] theorem State.advanceI_rnd (s : State) (n : Nat) (x : RegIx) : (s.advanceI n x).rnd = s.rnd := by
  unfold State.advanceI; split <;> rfl
@[simp] theorem State.advanceI_soundActive (s : State) (n : Nat) (x : RegIx) : (s.advanceI n x).soundActive = s.soundActive := by
  unfold State.advanceI; split <;> rfl
@[simp] theorem State.advanceI_fetch (s : State) (n : Nat) (x : RegIx) : (s.advanceI n x).fetch = s.fetch := by
  unfold State.advanceI; split <;> rfl
@[simp] theorem State.advanceI_shiftOperand (s : State) (n : Nat) (x : RegIx) (y z : RegIx) : (s.advanceI n x).shiftOperand y z = s.shiftOperand y z := by
  unfold State.advanceI; split <;> rfl

/-! ### `State.done` -/

@[simp] theorem State.done_v (s : State) : (s.done).v = s.v := (rfl)
@[simp] theorem State.done_i (s : State) : (s.done).i = s.i := (rfl)
@[simp] theorem State.done_pc (s : State) : (s.done).pc = s.pc := (rfl)
@[simp] theorem State.done_sp (s : State) : (s.done).sp = s.sp := (rfl)
@[simp] theorem State.done_stk (s : State) : (s.done).stk = s.stk := (rfl)
@[simp] theorem State.done_dt (s : State) : (s.done).dt = s.dt := (rfl)
@[simp] theorem State.done_st (s : State) : (s.done).st = s.st := (rfl)
@[simp] theorem State.done_mem (s : State) : (s.done).mem = s.mem := (rfl)
@[simp] theorem State.done_fb (s : State) : (s.done).fb = s.fb := (rfl)
@[simp] theorem State.done_halted (s : State) : (s.done).halted = s.halted := (rfl)
@[simp] theorem State.done_err (s : State) : (s.done).err = s.err := (rfl)
@[simp] theorem State.done_errLog (s : State) : (s.done).errLog = s.errLog := (rfl)
@[simp] theorem State.done_outcome (s : State) : (s.done).outcome = some (.ok { fbChanged := false, soundActive := s.soundActive }) := (rfl)
@[simp] theorem State.done_accT (s : State) : (s.done).accT = s.accT := (rfl)
@[simp] theorem State.done_accC (s : State) : (s.done).accC = s.accC := (rfl)
@[simp] theorem State.done_cfg (s : State) : (s.done).cfg = s.cfg := (rfl)
@[simp] theorem State.done_stimuli (s : State) : (s.done).stimuli = s.stimuli := (rfl)
@[simp] theorem State.done_eventNo (s : State) : (s.done).eventNo = s.eventNo := (rfl)
@[simp] theorem State.done_readV (s : State) (y : RegIx) : (s.done).readV y = s.readV y := (rfl)
@[simp] theorem State.done_readByte (s : State) (a : Nat) : (s.done).readByte a = s.readByte a := (rfl)
@[simp] theorem State.done_stimulus (s : State) : (s.done).stimulus = s.stimulus := (rfl)
@[simp] theorem State.done_keys (s : State) : (s.done).keys = s.keys := (rfl)
@[simp] theorem State.done_rnd (s : State) : (s.done).rnd = s.rnd := (rfl)
@[simp] theorem State.done_soundActive (s : State) : (s.done).soundActive = s.soundActive := (rfl)
@[simp] theorem State.done_fetch (s : State) : (s.done).fetch = s.fetch := (rfl)
@[simp] theorem State.done_shiftOperand (s : State) (y z : RegIx) : (s.done).shiftOperand y z = s.shiftOperand y z := (rfl)

/-! ### `State.doneDrawing` -/

@[simp] theorem State.doneDrawing_v (s : State) (old : Grid) : (s.doneDrawing old).v = s.v := (rfl)
@[simp] theorem State.doneDrawing_i (s : State) (old : Grid) : (s.doneDrawing old).i = s.i := (rfl)
@[simp] theorem State.doneDrawing_pc (s : State) (old : Grid) : (s.doneDrawing old).pc = s.pc := (rfl)
@[simp] theorem State.doneDrawing_sp (s : State) (old : Grid) : (s.doneDrawing old).sp = s.sp := (rfl)
@[simp] theorem State.doneDrawing_stk (s : State) (old : Grid) : (s.doneDrawing old).stk = s.stk := (rfl)
@[simp] theorem State.doneDrawing_dt (s : State) (old : Grid) : (s.doneDrawing old).dt = s.dt := (rfl)
@[simp] theorem State.doneDrawing_st (s : State) (old : Grid) : (s.doneDrawing old).st = s.st := (rfl)
@[simp] theorem State.doneDrawing_mem (s : State) (old : Grid) : (s.doneDrawing old).mem = s.mem := (rfl)
@[simp] theorem State.doneDrawing_fb (s : State) (old : Grid) : (s.doneDrawing old).fb = s.fb := (rfl)
@[simp] theorem State.doneDrawing_halted (s : State) (old : Grid) : (s.doneDrawing old).halted = s.halted := (rfl)
@[simp] theorem State.doneDrawing_err (s : State) (old : Grid) : (s.doneDrawing old).err = s.err := (rfl)
@[simp] theorem State.doneDrawing_errLog (s : State) (old : Grid) : (s.doneDrawing old).errLog = s.errLog := (rfl)
@[simp] theorem State.doneDrawing_outcome (s : State) (old : Grid) : (s.doneDrawing old).outcome = some (.ok { fbChanged := decide (s.fb ≠ old) || s.stimulus.fbHint, soundActive := s.soundActive }) := (rfl)
@[simp] theorem State.doneDrawing_accT (s : State) (old : Grid) : (s.doneDrawing old).accT = s.accT := (rfl)
@[simp] theorem State.doneDrawing_accC (s : State) (old : Grid) : (s.doneDrawing old).accC = s.accC := (rfl)
@[simp] theorem State.doneDrawing_cfg (s : State) (old : Grid) : (s.doneDrawing old).cfg = s.cfg := (rfl)
@[simp] theorem State.doneDrawing_stimuli (s : State) (old : Grid) : (s.doneDrawing old).stimuli = s.stimuli := (rfl)
@[simp] theorem State.doneDrawing_eventNo (s : State) (old : Grid) : (s.doneDrawing old).eventNo = s.eventNo := (rfl)
@[simp] theorem State.doneDrawing_readV (s : State) (old : Grid) (y : RegIx) : (s.doneDrawing old).readV y = s.readV y := (rfl)
@[simp] theorem State.doneDrawing_readByte (s : State) (old : Grid) (a : Nat) : (s.doneDrawing old).readByte a = s.readByte a := (rfl)
@[simp] theorem State.doneDrawing_stimulus (s : State) (old : Grid) : (s.doneDrawing old).stimulus = s.stimulus := (rfl)
@[simp] theorem State.doneDrawing_keys (s : State) (old : Grid) : (s.doneDrawing old).keys = s.keys := (rfl)
@[simp] theorem State.doneDrawing_rnd (s : State) (old : Grid) : (s.doneDrawing old).rnd = s.rnd := (rfl)
@[simp] theorem State.doneDrawing_soundActive (s : State) (old : Grid) : (s.doneDrawing old).soundActive = s.soundActive := (rfl)
@[simp] theorem State.doneDrawing_fetch (s : State) (old : Grid) : (s.doneDrawing old).fetch = s.fetch := (rfl)
@[simp] theorem State.doneDrawing_shiftOperand (s : State) (old : Grid) (y z : RegIx) : (s.doneDrawing old).shiftOperand y z = s.shiftOperand y z := (rfl)

/-! ### `State.waitForKey` -/

@[simp] theorem State.waitForKey_v (s : State) : (s.waitForKey).v = s.v := (rfl)
@[simp] theorem State.waitForKey_i (s : State) : (s.waitForKey).i = s.i := (rfl)
@[simp] theorem State.waitForKey_pc (s : State) : (s.waitForKey).pc = s.pc - 2#16 := (rfl)
@[simp] theorem State.waitForKey_sp (s : State) : (s.waitForKey).sp = s.sp := (rfl)
@[simp] theorem State.waitForKey_stk (s : State) : (s.waitForKey).stk = s.stk := (rfl)
@[simp] theorem State.waitForKey_dt (s : State) : (s.waitForKey).dt = s.dt := (rfl)
@[simp] theorem State.waitForKey_st (s : State) : (s.waitForKey).st = s.st := (rfl)
@[simp] theorem State.waitForKey_mem (s : State) : (s.waitForKey).mem = s.mem := (rfl)
@[simp] theorem State.waitForKey_fb (s : State) : (s.waitForKey).fb = s.fb := (rfl)
@[simp] theorem State.waitForKey_halted (s : State) : (s.waitForKey).halted = s.halted := (rfl)
@[simp] theorem State.waitForKey_err (s : State) : (s.waitForKey).err = s.err := (rfl)
@[simp] theorem State.waitForKey_errLog (s : State) : (s.waitForKey).errLog = s.errLog := (rfl)
@[simp] theorem State.waitForKey_outcome (s : State) : (s.waitForKey).outcome = some .waitingForKey := (rfl)
@[simp] theorem State.waitForKey_accT (s : State) : (s.waitForKey).accT = s.accT := (rfl)
@[simp] theorem State.waitForKey_accC (s : State) : (s.waitForKey).accC = s.accC := (rfl)
@[simp] theorem State.waitForKey_cfg (s : State) : (s.waitForKey).cfg = s.cfg := (rfl)
@[simp] theorem State.waitForKey_stimuli (s : State) : (s.waitForKey).stimuli = s.stimuli := (rfl)
@[simp] theorem State.waitForKey_eventNo (s : State) : (s.waitForKey).eventNo = s.eventNo := (rfl)
@[simp] theorem State.waitForKey_readV (s : State) (y : RegIx) : (s.waitForKey).readV y = s.readV y := (rfl)
@[simp] theorem State.waitForKey_readByte (s : State) (a : Nat) : (s.waitForKey).readByte a = s.readByte a := (rfl)
@[simp] theorem State.waitForKey_stimulus (s : State) : (s.waitForKey).stimulus = s.stimulus := (rfl)
@[simp] theorem State.waitForKey_keys (s : State) : (s.waitForKey).keys = s.keys := (rfl)
@[simp] theorem State.waitForKey_rnd (s : State) : (s.waitForKey).rnd = s.rnd := (rfl)
@[simp] theorem State.waitForKey_soundActive (s : State) : (s.waitForKey).soundActive = s.soundActive := (rfl)
@[simp] theorem State.waitForKey_shiftOperand (s : State) (y z : RegIx) : (s.waitForKey).shiftOperand y z = s.shiftOperand y z := (rfl)

/-! ### `State.stayHalted` -/

@[simp] theorem State.stayHalted_v (s : State) : (s.stayHalted).v = s.v := (rfl)
@[simp] theorem State.stayHalted_i (s : State) : (s.stayHalted).i = s.i := (rfl)
@[simp] theorem State.stayHalted_pc (s : State) : (s.stayHalted).pc = s.pc := (rfl)
@[simp] theorem State.stayHalted_sp (s : State) : (s.stayHalted).sp = s.sp := (rfl)
@[simp] theorem State.stayHalted_stk (s : State) : (s.stayHalted).stk = s.stk := (rfl)
@[simp] theorem State.stayHalted_dt (s : State) : (s.stayHalted).dt = s.dt := (rfl)
@[simp] theorem State.stayHalted_st (s : State) : (s.stayHalted).st = s.st := (rfl)
@[simp] theorem State.stayHalted_mem (s : State) : (s.stayHalted).mem = s.mem := (rfl)
@[simp] theorem State.stayHalted_fb (s : State) : (s.stayHalted).fb = s.fb := (rfl)
@[simp] theorem State.stayHalted_halted (s : State) : (s.stayHalted).halted = s.halted := (rfl)
@[simp] theorem State.stayHalted_err (s : State) : (s.stayHalted).err = s.err := (rfl)
@[simp] theorem State.stayHalted_errLog (s : State) : (s.stayHalted).errLog = s.errLog := (rfl)
@[simp] theorem State.stayHalted_outcome (s : State) : (s.stayHalted).outcome = some (.halted s.err) := (rfl)
@[simp] theorem State.stayHalted_accT (s : State) : (s.stayHalted).accT = s.accT := (rfl)
@[simp] theorem State.stayHalted_accC (s : State) : (s.stayHalted).accC = s.accC := (rfl)
@[simp] theorem State.stayHalted_cfg (s : State) : (s.stayHalted).cfg = s.cfg := (rfl)
@[simp] theorem State.stayHalted_stimuli (s : State) : (s.stayHalted).stimuli = s.stimuli := (rfl)
@[simp] theorem State.stayHalted_eventNo (s : State) : (s.stayHalted).eventNo = s.eventNo := (rfl)
@[simp] theorem State.stayHalted_readV (s : State) (y : RegIx) : (s.stayHalted).readV y = s.readV y := (rfl)
@[simp] theorem State.stayHalted_readByte (s : State) (a : Nat) : (s.stayHalted).readByte a = s.readByte a := (rfl)
@[simp] theorem State.stayHalted_stimulus (s : State) : (s.stayHalted).stimulus = s.stimulus := (rfl)
@[simp] theorem State.stayHalted_keys (s : State) : (s.stayHalted).keys = s.keys := (rfl)
@[simp] theorem State.stayHalted_rnd (s : State) : (s.stayHalted).rnd = s.rnd := (rfl)
@[simp] theorem State.stayHalted_soundActive (s : State) : (s.stayHalted).soundActive = s.soundActive := (rfl)
@[simp] theorem State.stayHalted_fetch (s : State) : (s.stayHalted).fetch = s.fetch := (rfl)
@[simp] theorem State.stayHalted_shiftOperand (s : State) (y z : RegIx) : (s.stayHalted).shiftOperand y z = s.shiftOperand y z := (rfl)

/-! ### `State.raise` -/

@[simp] theorem State.raise_v (s : State) (e : ExecError) : (s.raise e).v = s.v := by
  unfold State.raise; split <;> rfl
@[simp] theorem State.raise_i (s : State) (e : ExecError) : (s.raise e).i = s.i := by
  unfold State.raise; split <;> rfl
@[simp] theorem State.raise_pc (s : State) (e : ExecError) : (s.raise e).pc = s.pc := by
  unfold State.raise; split <;> rfl
@[simp] theorem State.raise_sp (s : State) (e : ExecError) : (s.raise e).sp = s.sp := by
  unfold State.raise; split <;> rfl
@[simp] theorem State.raise_stk (s : State) (e : ExecError) : (s.raise e).stk = s.stk := by
  unfold State.raise; split <;> rfl
@[simp] theorem State.raise_dt (s : State) (e : ExecError) : (s.raise e).dt = s.dt := by
  unfold State.raise; split <;> rfl
@[simp] theorem State.raise_st (s : State) (e : ExecError) : (s.raise e).st = s.st := by
  unfold State.raise; split <;> rfl
@[simp] theorem State.raise_mem (s : State) (e : ExecError) : (s.raise e).mem = s.mem := by
  unfold State.raise; split <;> rfl
@[simp] theorem State.raise_fb (s : State) (e : ExecError) : (s.raise e).fb = s.fb := by
  unfold State.raise; split <;> rfl
@[simp] theorem State.raise_halted (s : State) (e : ExecError) : (s.raise e).halted = (e.halts s.cfg.errPolicy || s.halted) := by
  unfold State.raise; split <;> simp_all
@[simp] theorem State.raise_err (s : State) (e : ExecError) : (s.raise e).err = if e.halts s.cfg.errPolicy then some e else s.err := by
  unfold State.raise; split <;> rfl
@[simp] theorem State.raise_errLog (s : State) (e : ExecError) : (s.raise e).errLog = if e.halts s.cfg.errPolicy then s.errLog else s.errLog ++ [e] := by
  unfold State.raise; split <;> rfl
@[simp] theorem State.raise_outcome (s : State) (e : ExecError) : (s.raise e).outcome = some (.err e) := by
  unfold State.raise; split <;> rfl
@[simp] theorem State.raise_accT (s : State) (e : ExecError) : (s.raise e).accT = s.accT := by
  unfold State.raise; split <;> rfl
@[simp] theorem State.raise_accC (s : State) (e : ExecError) : (s.raise e).accC = s.accC := by
  unfold State.raise; split <;> rfl
@[simp] theorem State.raise_cfg (s : State) (e : ExecError) : (s.raise e).cfg = s.cfg := by
  unfold State.raise; split <;> rfl
@[simp] theorem State.raise_stimuli (s : State) (e : ExecError) : (s.raise e).stimuli = s.stimuli := by
  unfold State.raise; split <;> rfl
@[simp] theorem State.raise_eventNo (s : State) (e : ExecError) : (s.raise e).eventNo = s.eventNo := by
  unfold State.raise; split <;> rfl
@[simp] theorem State.raise_readV (s : State) (e : ExecError) (y : RegIx) : (s.raise e).readV y = s.readV y := by
  unfold State.raise; split <;> rfl
@[simp] theorem State.raise_readByte (s : State) (e : ExecError) (a : Nat) : (s.raise e).readByte a = s.readByte a := by
  unfold State.raise; split <;> rfl
@[simp] theorem State.raise_stimulus (s : State) (e : ExecError) : (s.raise e).stimulus = s.stimulus := by
  unfold State.raise; split <;> rfl
@[simp] theorem State.raise_keys (s : State) (e : ExecError) : (s.raise e).keys = s.keys := by
  unfold State.raise; split <;> rfl
@[simp] theorem State.raise_rnd (s : State) (e : ExecError) : (s.raise e).rnd = s.rnd := by
  unfold State.raise; split <;> rfl
@[simp] theorem State.raise_soundActive (s : State) (e : ExecError) : (s.raise e).soundActive = s.soundActive := by
  unfold State.raise; split <;> rfl
@[simp] theorem State.raise_fetch (s : State) (e : ExecError) : (s.raise e).fetch = s.fetch := by
  unfold State.raise; split <;> rfl
@[simp] theorem State.raise_shiftOperand (s : State) (e : ExecError) (y z : RegIx) : (s.raise e).shiftOperand y z = s.shiftOperand y z := by
  unfold State.raise; split <;> rfl

/-! ### `State.nextEvent` -/

@[simp] theorem State.nextEvent_v (s : State) : (s.nextEvent).v = s.v := (rfl)
@[simp] theorem State.nextEvent_i (s : State) : (s.nextEvent).i = s.i := (rfl)
@[simp] theorem State.nextEvent_pc (s : State) : (s.nextEvent).pc = s.pc := (rfl)
@[simp] theorem State.nextEvent_sp (s : State) : (s.nextEvent).sp = s.sp := (rfl)
@[simp] theorem State.nextEvent_stk (s : State) : (s.nextEvent).stk = s.stk := (rfl)
@[simp] theorem State.nextEvent_dt (s : State) : (s.nextEvent).dt = s.dt := (rfl)
@[simp] theorem State.nextEvent_st (s : State) : (s.nextEvent).st = s.st := (rfl)
@[simp] theorem State.nextEvent_mem (s : State) : (s.nextEvent).mem = s.mem := (rfl)
@[simp] theorem State.nextEvent_fb (s : State) : (s.nextEvent).fb = s.fb := (rfl)
@[simp] theorem State.nextEvent_halted (s : State) : (s.nextEvent).halted = s.halted := (rfl)
@[simp] theorem State.nextEvent_err (s : State) : (s.nextEvent).err = s.err := (rfl)
@[simp] theorem State.nextEvent_errLog (s : State) : (s.nextEvent).errLog = s.errLog := (rfl)
@[simp] theorem State.nextEvent_outcome (s : State) : (s.nextEvent).outcome = s.outcome := (rfl)
@[simp] theorem State.nextEvent_accT (s : State) : (s.nextEvent).accT = s.accT := (rfl)
@[simp] theorem State.nextEvent_accC (s : State) : (s.nextEvent).accC = s.accC := (rfl)
@[simp] theorem State.nextEvent_cfg (s : State) : (s.nextEvent).cfg = s.cfg := (rfl)
@[simp] theorem State.nextEvent_stimuli (s : State) : (s.nextEvent).stimuli = s.stimuli.tail := (rfl)
@[simp] theorem State.nextEvent_eventNo (s : State) : (s.nextEvent).eventNo = s.eventNo + 1 := (rfl)
@[simp] theorem State.nextEvent_readV (s : State) (y : RegIx) : (s.nextEvent).readV y = s.readV y := (rfl)
@[simp] theorem State.nextEvent_readByte (s : State) (a : Nat) : (s.nextEvent).readByte a = s.readByte a := (rfl)
@[simp] theorem State.nextEvent_soundActive (s : State) : (s.nextEvent).soundActive = s.soundActive := (rfl)
@[simp] theorem State.nextEvent_fetch (s : State) : (s.nextEvent).fetch = s.fetch := (rfl)
@[simp] theorem State.nextEvent_shiftOperand (s : State) (y z : RegIx) : (s.nextEvent).shiftOperand y z = s.shiftOperand y z := (rfl)

/-! ### `State.setKeys` -/

@[simp] theorem State.setKeys_v (s : State) (m : BitVec 16) : (s.setKeys m).v = s.v := (rfl)
@[simp] theorem State.setKeys_i (s : State) (m : BitVec 16) : (s.setKeys m).i = s.i := (rfl)
@[simp] theorem State.setKeys_pc (s : State) (m : BitVec 16) : (s.setKeys m).pc = s.pc := (rfl)
@[simp] theorem State.setKeys_sp (s : State) (m : BitVec 16) : (s.setKeys m).sp = s.sp := (rfl)
@[simp] theorem State.setKeys_stk (s : State) (m : BitVec 16) : (s.setKeys m).stk = s.stk := (rfl)
@[simp] theorem State.setKeys_dt (s : State) (m : BitVec 16) : (s.setKeys m).dt = s.dt := (rfl)
@[simp] theorem State.setKeys_st (s : State) (m : BitVec 16) : (s.setKeys m).st = s.st := (rfl)
@[simp] theorem State.setKeys_mem (s : State) (m : BitVec 16) : (s.setKeys m).mem = s.mem := (rfl)
@[simp] theorem State.setKeys_fb (s : State) (m : BitVec 16) : (s.setKeys m).fb = s.fb := (rfl)
@[simp] theorem State.setKeys_halted (s : State) (m : BitVec 16) : (s.setKeys m).halted = s.halted := (rfl)
@[simp] theorem State.setKeys_err (s : State) (m : BitVec 16) : (s.setKeys m).err = s.err := (rfl)
@[simp] theorem State.setKeys_errLog (s : State) (m : BitVec 16) : (s.setKeys m).errLog = s.errLog := (rfl)
@[simp] theorem State.setKeys_outcome (s : State) (m : BitVec 16) : (s.setKeys m).outcome = s.outcome := (rfl)
@[simp] theorem State.setKeys_accT (s : State) (m : BitVec 16) : (s.setKeys m).accT = s.accT := (rfl)
@[simp] theorem State.setKeys_accC (s : State) (m : BitVec 16) : (s.setKeys m).accC = s.accC := (rfl)
@[simp] theorem State.setKeys_cfg (s : State) (m : BitVec 16) : (s.setKeys m).cfg = s.cfg := (rfl)
@[simp] theorem State.setKeys_stimuli (s : State) (m : BitVec 16) : (s.setKeys m).stimuli = { s.stimulus with keys := m } :: s.stimuli.tail := (rfl)
@[simp] theorem State.setKeys_eventNo (s : State) (m : BitVec 16) : (s.setKeys m).eventNo = s.eventNo := (rfl)
@[simp] theorem State.setKeys_readV (s : State) (m : BitVec 16) (y : RegIx) : (s.setKeys m).readV y = s.readV y := (rfl)
@[simp] theorem State.setKeys_readByte (s : State) (m : BitVec 16) (a : Nat) : (s.setKeys m).readByte a = s.readByte a := (rfl)
@[simp] theorem State.setKeys_soundActive (s : State) (m : BitVec 16) : (s.setKeys m).soundActive = s.soundActive := (rfl)
@[simp] theorem State.setKeys_fetch (s : State) (m : BitVec 16) : (s.setKeys m).fetch = s.fetch := (rfl)
@[simp] theorem State.setKeys_shiftOperand (s : State) (m : BitVec 16) (y z : RegIx) : (s.setKeys m).shiftOperand y z = s.shiftOperand y z := (rfl)

/-! ### `State.ticks` -/

@[simp] theorem State.ticks_v (n : Nat) (s : State) : (s.ticks n).v = s.v := (rfl)
@[simp] theorem State.ticks_i (n : Nat) (s : State) : (s.ticks n).i = s.i := (rfl)
@[simp] theorem State.ticks_pc (n : Nat) (s : State) : (s.ticks n).pc = s.pc := (rfl)
@[simp] theorem State.ticks_sp (n : Nat) (s : State) : (s.ticks n).sp = s.sp := (rfl)
@[simp] theorem State.ticks_stk (n : Nat) (s : State) : (s.ticks n).stk = s.stk := (rfl)
@[simp] theorem State.ticks_dt (n : Nat) (s : State) : (s.ticks n).dt = countDown n s.dt := (rfl)
@[simp] theorem State.ticks_st (n : Nat) (s : State) : (s.ticks n).st = countDown n s.st := (rfl)
@[simp] theorem State.ticks_mem (n : Nat) (s : State) : (s.ticks n).mem = s.mem := (rfl)
@[simp] theorem State.ticks_fb (n : Nat) (s : State) : (s.ticks n).fb = s.fb := (rfl)
@[simp] theorem State.ticks_halted (n : Nat) (s : State) : (s.ticks n).halted = s.halted := (rfl)
@[simp] theorem State.ticks_err (n : Nat) (s : State) : (s.ticks n).err = s.err := (rfl)
@[simp] theorem State.ticks_errLog (n : Nat) (s : State) : (s.ticks n).errLog = s.errLog := (rfl)
@[simp] theorem State.ticks_outcome (n : Nat) (s : State) : (s.ticks n).outcome = s.outcome := (rfl)
@[simp] theorem State.ticks_accT (n : Nat) (s : State) : (s.ticks n).accT = s.accT := (rfl)
@[simp] theorem State.ticks_accC (n : Nat) (s : State) : (s.ticks n).accC = s.accC := (rfl)
@[simp] theorem State.ticks_cfg (n : Nat) (s : State) : (s.ticks n).cfg = s.cfg := (rfl)
@[simp] theorem State.ticks_stimuli (n : Nat) (s : State) : (s.ticks n).stimuli = s.stimuli := (rfl)
@[simp] theorem State.ticks_eventNo (n : Nat) (s : State) : (s.ticks n).eventNo = s.eventNo := (rfl)
@[simp] theorem State.ticks_readV (n : Nat) (s : State) (y : RegIx) : (s.ticks n).readV y = s.readV y := (rfl)
@[simp] theorem State.ticks_readByte (n : Nat) (s : State) (a : Nat) : (s.ticks n).readByte a = s.readByte a := (rfl)
@[simp] theorem State.ticks_stimulus (n : Nat) (s : State) : (s.ticks n).stimulus = s.stimulus := (rfl)
@[simp] theorem State.ticks_keys (n : Nat) (s : State) : (s.ticks n).keys = s.keys := (rfl)
@[simp] theorem State.ticks_rnd (n : Nat) (s : State) : (s.ticks n).rnd = s.rnd := (rfl)
@[simp] theorem State.ticks_fetch (n : Nat) (s : State) : (s.ticks n).fetch = s.fetch := (rfl)
@[simp] theorem State.ticks_shiftOperand (n : Nat) (s : State) (y z : RegIx) : (s.ticks n).shiftOperand y z = s.shiftOperand y z := (rfl)

/-! ### `State.tick` -/

@[simp] theorem State.tick_v (s : State) : (s.tick).v = s.v := (rfl)
@[simp] theorem State.tick_i (s : State) : (s.tick).i = s.i := (rfl)
@[simp] theorem State.tick_pc (s : State) : (s.tick).pc = s.pc := (rfl)
@[simp] theorem State.tick_sp (s : State) : (s.tick).sp = s.sp := (rfl)
@[simp] theorem State.tick_stk (s : State) : (s.tick).stk = s.stk := (rfl)
@[simp] theorem State.tick_dt (s : State) : (s.tick).dt = if s.dt = 0x00#8 then s.dt else s.dt - 1#8 := (rfl)
@[simp] theorem State.tick_st (s : State) : (s.tick).st = if s.st = 0x00#8 then s.st else s.st - 1#8 := (rfl)
@[simp] theorem State.tick_mem (s : State) : (s.tick).mem = s.mem := (rfl)
@[simp] theorem State.tick_fb (s : State) : (s.tick).fb = s.fb := (rfl)
@[simp] theorem State.tick_halted (s : State) : (s.tick).halted = s.halted := (rfl)
@[simp] theorem State.tick_err (s : State) : (s.tick).err = s.err := (rfl)
@[simp] theorem State.tick_errLog (s : State) : (s.tick).errLog = s.errLog := (rfl)
@[simp] theorem State.tick_outcome (s : State) : (s.tick).outcome = s.outcome := (rfl)
@[simp] theorem State.tick_accT (s : State) : (s.tick).accT = s.accT := (rfl)
@[simp] theorem State.tick_accC (s : State) : (s.tick).accC = s.accC := (rfl)
@[simp] theorem State.tick_cfg (s : State) : (s.tick).cfg = s.cfg := (rfl)
@[simp] theorem State.tick_stimuli (s : State) : (s.tick).stimuli = s.stimuli := (rfl)
@[simp] theorem State.tick_eventNo (s : State) : (s.tick).eventNo = s.eventNo := (rfl)
@[simp] theorem State.tick_readV (s : State) (y : RegIx) : (s.tick).readV y = s.readV y := (rfl)
@[simp] theorem State.tick_readByte (s : State) (a : Nat) : (s.tick).readByte a = s.readByte a := (rfl)
@[simp] theorem State.tick_stimulus (s : State) : (s.tick).stimulus = s.stimulus := (rfl)
@[simp] theorem State.tick_keys (s : State) : (s.tick).keys = s.keys := (rfl)
@[simp] theorem State.tick_rnd (s : State) : (s.tick).rnd = s.rnd := (rfl)
@[simp] theorem State.tick_fetch (s : State) : (s.tick).fetch = s.fetch := (rfl)
@[simp] theorem State.tick_shiftOperand (s : State) (y z : RegIx) : (s.tick).shiftOperand y z = s.shiftOperand y z := (rfl)

/-! ### Inputs after `set_keys` -/

@[simp] theorem State.setKeys_stimulus (s : State) (m : BitVec 16) :
    (s.setKeys m).stimulus = { s.stimulus with keys := m } := (rfl)
@[simp] theorem State.setKeys_keys (s : State) (m : BitVec 16) : (s.setKeys m).keys = m := (rfl)
@[simp] theorem State.setKeys_rnd (s : State) (m : BitVec 16) : (s.setKeys m).rnd = s.rnd := (rfl)
/-- The keys given are those of the coming step event only. -/
@[simp] theorem State.setKeys_nextEvent (s : State) (m : BitVec 16) : (s.setKeys m).nextEvent = s.nextEvent := (rfl)

/-! ### Registers -/

/-- A V register read after a write of one. -/
@[simp] theorem State.readV_writeV (s : State) (x y : RegIx) (b : Byte) :
    (s.writeV x b).readV y = if y = x then b else s.readV y := by
  by_cases h : y = x
  · subst h; simp [State.readV, State.writeV]
  · have : x.toNat ≠ y.toNat := fun e => h (BitVec.eq_of_toNat_eq e.symm)
    simp [State.readV, State.writeV, this, h]

end Sys2Proof.Machine
end

