-- ==== Sys2Proof/Laws/Ops.lean ====
section
/-! SUPPORT. One lemma for each shared operation of the machine: everything it can do. -/

namespace Sys2Proof.Machine

/-! ### Addresses -/

/-- An address that `Addr` accepts is inside the 4096 bytes. -/
theorem addr_lt {mode : AddrMode} {tag : SubOp} {a p : Nat} (h : addr mode tag a = .ok p) : p < 4096 := by
  cases mode with
  | wraparound => simp only [addr, Except.ok.injEq] at h; omega
  | strictBounds =>
    simp only [addr] at h
    split at h
    · cases h
    · cases h; omega

/-- `Addr` accepts `a` exactly when the memory wraps or `a` is inside it, and answers `a mod 4096`. -/
theorem addr_ok_iff {mode : AddrMode} {tag : SubOp} {a p : Nat} :
    addr mode tag a = .ok p ↔ (mode = .wraparound ∨ a < 4096) ∧ p = a % 4096 := by
  cases mode with
  | wraparound => simp [addr, eq_comm]
  | strictBounds =>
    simp only [addr]
    split
    · simp; omega
    · simp only [Except.ok.injEq, reduceCtorEq, false_or]
      constructor
      · rintro rfl; omega
      · rintro ⟨h, rfl⟩; omega

/-- `Addr` refuses `a` exactly under StrictBounds outside the memory, with the tag and the requested address. -/
theorem addr_error_iff {mode : AddrMode} {tag : SubOp} {a : Nat} {e : ExecError} :
    addr mode tag a = .error e ↔ mode = .strictBounds ∧ 4096 ≤ a ∧ e = .outOfBounds tag a := by
  cases mode with
  | wraparound => simp [addr]
  | strictBounds =>
    simp only [addr]
    split
    · simp_all [eq_comm]
    · simp; omega

/-- The physical addresses of a run that `Addr` accepts whole: each one reduced modulo 4096. -/
theorem addrs_ok_iff {mode : AddrMode} {tag : SubOp} {a n : Nat} {ps : List Nat} :
    addrs mode tag a n = .ok ps ↔
      (∀ k < n, mode = .wraparound ∨ a + k < 4096) ∧ ps = (List.range n).map (fun k => (a + k) % 4096) := by
  induction n generalizing a ps with
  | zero => simp [addrs, eq_comm]
  | succ n ih =>
    have hr : (List.range (n + 1)).map (fun k => (a + k) % 4096) =
        a % 4096 :: (List.range n).map (fun k => (a + 1 + k) % 4096) := by
      rw [List.range_succ_eq_map]
      simp only [List.map_cons, List.map_map, Nat.add_zero, List.cons.injEq, true_and]
      exact List.map_congr_left fun k _ => by simp only [Function.comp]; congr 1; omega
    simp only [addrs]
    cases h1 : addr mode tag a with
    | error e =>
      obtain ⟨hm, ha, -⟩ := addr_error_iff.mp h1
      simp only [reduceCtorEq, false_iff, not_and]
      intro h
      rcases h 0 (by omega) with h | h
      · rw [hm] at h; cases h
      · omega
    | ok p =>
      obtain ⟨h0, rfl⟩ := addr_ok_iff.mp h1
      cases h2 : addrs mode tag (a + 1) n with
      | error e =>
        simp only [reduceCtorEq, false_iff, not_and]
        intro h
        have : addrs mode tag (a + 1) n = .ok ((List.range n).map (fun k => (a + 1 + k) % 4096)) :=
          ih.mpr ⟨fun k hk => by have := h (k + 1) (by omega); rwa [Nat.add_right_comm, Nat.add_assoc], rfl⟩
        rw [h2] at this; cases this
      | ok qs =>
        obtain ⟨hq, rfl⟩ := ih.mp h2
        simp only [Except.ok.injEq, hr]
        constructor
        · rintro rfl
          refine ⟨fun k hk => ?_, rfl⟩
          cases k with
          | zero => simpa using h0
          | succ k => have := hq k (by omega); rwa [Nat.add_right_comm, Nat.add_assoc] at this
        · rintro ⟨-, rfl⟩; rfl

/-- A run of addresses fails at the first one that is outside the memory under StrictBounds. -/
theorem addrs_error_iff {mode : AddrMode} {tag : SubOp} {a n : Nat} {e : ExecError} :
    addrs mode tag a n = .error e ↔
      mode = .strictBounds ∧ ∃ k < n, 4096 ≤ a + k ∧ (∀ j < k, a + j < 4096) ∧ e = .outOfBounds tag (a + k) := by
  induction n generalizing a with
  | zero => simp [addrs]
  | succ n ih =>
    simp only [addrs]
    cases h1 : addr mode tag a with
    | error e' =>
      obtain ⟨hm, ha, rfl⟩ := addr_error_iff.mp h1
      simp only [Except.error.injEq]
      constructor
      · rintro rfl; exact ⟨hm, 0, by omega, by omega, by omega, rfl⟩
      · rintro ⟨-, k, -, -, hj, rfl⟩
        cases k with
        | zero => rfl
        | succ k => have := hj 0 (by omega); omega
    | ok p =>
      obtain ⟨h0, rfl⟩ := addr_ok_iff.mp h1
      have key : addrs mode tag (a + 1) n = .error e ↔ mode = .strictBounds ∧ ∃ k < n + 1, 4096 ≤ a + k ∧
          (∀ j < k, a + j < 4096) ∧ e = .outOfBounds tag (a + k) := by
        rw [ih]
        constructor
        · rintro ⟨hm, k, hk, h4, hj, rfl⟩
          refine ⟨hm, k + 1, by omega, by omega, fun j hj' => ?_, by rw [Nat.add_right_comm, Nat.add_assoc]⟩
          rcases h0 with h0 | h0
          · rw [h0] at hm; cases hm
          · cases j with
            | zero => omega
            | succ j => have := hj j (by omega); omega
        · rintro ⟨hm, k, hk, h4, hj, rfl⟩
          cases k with
          | zero =>
            rcases h0 with h0 | h0
            · rw [h0] at hm; cases hm
            · omega
          | succ k =>
            exact ⟨hm, k, by omega, by omega, fun j hj' => by have := hj (j + 1) (by omega); omega,
              by rw [Nat.add_right_comm, Nat.add_assoc]⟩
      rw [← key]
      cases addrs mode tag (a + 1) n <;> simp

/-- The bytes read from a run of addresses. -/
theorem State.loadBytes_ok_iff {s : State} {a n : Nat} {bs : List Byte} :
    s.loadBytes a n = .ok bs ↔ (∀ k < n, s.cfg.addrMode = .wraparound ∨ a + k < 4096) ∧
      bs = (List.range n).map (fun k => s.readByte ((a + k) % 4096)) := by
  simp only [State.loadBytes]
  cases h : addrs s.cfg.addrMode .memRead a n with
  | error e =>
    simp only [reduceCtorEq, false_iff, not_and]
    intro hk
    rw [addrs_ok_iff.mpr ⟨hk, rfl⟩] at h; cases h
  | ok ps =>
    obtain ⟨hk, rfl⟩ := addrs_ok_iff.mp h
    rw [and_iff_right hk, eq_comm]; simp [Function.comp_def]

/-- A read of a run of addresses fails at the first one outside the memory under StrictBounds. -/
theorem State.loadBytes_error_iff {s : State} {a n : Nat} {e : ExecError} :
    s.loadBytes a n = .error e ↔ s.cfg.addrMode = .strictBounds ∧
      ∃ k < n, 4096 ≤ a + k ∧ (∀ j < k, a + j < 4096) ∧ e = .outOfBounds .memRead (a + k) := by
  rw [← addrs_error_iff]
  simp only [State.loadBytes]
  cases addrs s.cfg.addrMode .memRead a n <;> simp

/-- A store to a run of addresses changes memory only, byte after byte. -/
theorem State.storeBytes_ok_iff {s t : State} {a : Nat} {xs : List Byte} :
    s.storeBytes a xs = .ok t ↔ (∀ k < xs.length, s.cfg.addrMode = .wraparound ∨ a + k < 4096) ∧
      t = { s with mem := s.mem.writeAll (((List.range xs.length).map (fun k => (a + k) % 4096)).zip xs) } := by
  simp only [State.storeBytes]
  cases h : addrs s.cfg.addrMode .memWrite a xs.length with
  | error e =>
    simp only [reduceCtorEq, false_iff, not_and]
    intro hk
    rw [addrs_ok_iff.mpr ⟨hk, rfl⟩] at h; cases h
  | ok ps =>
    obtain ⟨hk, rfl⟩ := addrs_ok_iff.mp h
    rw [and_iff_right hk, eq_comm]; simp

/-- A store to a run of addresses fails at the first one outside the memory under StrictBounds. -/
theorem State.storeBytes_error_iff {s : State} {a : Nat} {xs : List Byte} {e : ExecError} :
    s.storeBytes a xs = .error e ↔ s.cfg.addrMode = .strictBounds ∧
      ∃ k < xs.length, 4096 ≤ a + k ∧ (∀ j < k, a + j < 4096) ∧ e = .outOfBounds .memWrite (a + k) := by
  rw [← addrs_error_iff]
  simp only [State.storeBytes]
  cases addrs s.cfg.addrMode .memWrite a xs.length <;> simp

/-- A store of at most 4096 bytes: each byte stands at its address afterwards. -/
theorem State.storeBytes_read {s t : State} {a : Nat} {xs : List Byte} (h : s.storeBytes a xs = .ok t)
    (hl : xs.length ≤ 4096) (k : Nat) (hk : k < xs.length) : t.readByte ((a + k) % 4096) = xs[k] := by
  obtain ⟨-, rfl⟩ := State.storeBytes_ok_iff.mp h
  refine Memory.read_writeAll_mem _ _ ?_ _ _ ?_
  · rw [List.map_fst_zip (by simp)]
    rw [List.nodup_map_iff_inj_on List.nodup_range]
    intro i hi j hj e
    simp only [List.mem_range] at hi hj
    omega
  · rw [List.mem_iff_getElem]
    exact ⟨k, by simpa using hk, by simp⟩

/-- A store leaves every byte outside its addresses alone. -/
theorem State.storeBytes_read_other {s t : State} {a : Nat} {xs : List Byte} (h : s.storeBytes a xs = .ok t)
    (b : Nat) (hb : ∀ k < xs.length, (a + k) % 4096 ≠ b) : t.readByte b = s.readByte b := by
  obtain ⟨-, rfl⟩ := State.storeBytes_ok_iff.mp h
  refine Memory.read_writeAll_other _ _ _ ?_
  rintro ⟨p, x⟩ hc
  obtain ⟨k, hk, rfl⟩ := List.mem_map.mp (List.of_mem_zip hc).1
  exact hb k (List.mem_range.mp hk)

/-- A store keeps the canonical form of memory. -/
theorem State.storeBytes_wf {s t : State} {a : Nat} {xs : List Byte} (h : s.storeBytes a xs = .ok t)
    (hm : s.mem.wf = true) : t.mem.wf = true := by
  obtain ⟨-, rfl⟩ := State.storeBytes_ok_iff.mp h
  refine Memory.wf_writeAll _ _ ?_ hm
  rintro ⟨p, x⟩ hc
  obtain ⟨k, -, rfl⟩ := List.mem_map.mp (List.of_mem_zip hc).1
  exact Nat.mod_lt _ (by omega)

/-- What a fetch answers: the two bytes at PC, each at its own address. -/
theorem State.fetch_ok_iff {s : State} {w : Word} :
    s.fetch = .ok w ↔ (s.cfg.addrMode = .wraparound ∨ s.pc.toNat + 1 < 4096) ∧
      w = s.readByte (s.pc.toNat % 4096) ++ s.readByte ((s.pc.toNat + 1) % 4096) := by
  simp only [State.fetch]
  cases h1 : addr s.cfg.addrMode .fetch s.pc.toNat with
  | error e =>
    obtain ⟨hm, ha, -⟩ := addr_error_iff.mp h1
    simp [hm]; omega
  | ok p =>
    obtain ⟨h0, rfl⟩ := addr_ok_iff.mp h1
    cases h2 : addr s.cfg.addrMode .fetch (s.pc.toNat + 1) with
    | error e =>
      obtain ⟨hm, ha, -⟩ := addr_error_iff.mp h2
      simp [hm]; omega
    | ok q =>
      obtain ⟨h1, rfl⟩ := addr_ok_iff.mp h2
      rw [and_iff_right h1, eq_comm]; simp

/-- When a fetch fails: under StrictBounds, at the first of its two addresses that is outside the memory. -/
theorem State.fetch_error_iff {s : State} {e : ExecError} :
    s.fetch = .error e ↔ s.cfg.addrMode = .strictBounds ∧
      ((4096 ≤ s.pc.toNat ∧ e = .outOfBounds .fetch s.pc.toNat) ∨
       (s.pc.toNat = 4095 ∧ e = .outOfBounds .fetch 4096)) := by
  simp only [State.fetch]
  cases h1 : addr s.cfg.addrMode .fetch s.pc.toNat with
  | error e' =>
    obtain ⟨hm, ha, rfl⟩ := addr_error_iff.mp h1
    simp only [Except.error.injEq]
    constructor
    · rintro rfl; exact ⟨hm, .inl ⟨ha, rfl⟩⟩
    · rintro ⟨-, ⟨-, rfl⟩ | ⟨h, -⟩⟩
      · rfl
      · omega
  | ok p =>
    obtain ⟨h0, rfl⟩ := addr_ok_iff.mp h1
    cases h2 : addr s.cfg.addrMode .fetch (s.pc.toNat + 1) with
    | error e' =>
      obtain ⟨hm, ha, rfl⟩ := addr_error_iff.mp h2
      rcases h0 with h0 | h0
      · rw [h0] at hm; cases hm
      · have : s.pc.toNat = 4095 := by omega
        simp only [Except.error.injEq, this]
        constructor
        · rintro rfl; simp [hm]
        · rintro ⟨-, ⟨h, -⟩ | ⟨-, rfl⟩⟩
          · omega
          · rfl
    | ok q =>
      obtain ⟨h3, rfl⟩ := addr_ok_iff.mp h2
      simp only [reduceCtorEq, false_iff, not_and]
      rintro hm (⟨h, -⟩ | ⟨h, -⟩) <;> rcases h3 with h3 | h3
      · rw [h3] at hm; cases hm
      · omega
      · rw [h3] at hm; cases hm
      · omega

/-! ### The stack -/

/-- Everything a push can do. -/
theorem State.push_cases (s : State) (w : Word) :
    (∃ h : s.sp.val < 16, s.push w =
        .ok { s with stk := s.stk.set s.sp.val w h, sp := ⟨s.sp.val + 1, by omega⟩ }) ∨
      (s.sp.val = 16 ∧ s.push w = .error .stackOverflow) := by
  unfold State.push
  split
  · exact .inl ⟨by assumption, rfl⟩
  · exact .inr ⟨by omega, rfl⟩

/-- Everything a pop can do. -/
theorem State.pop_cases (s : State) :
    (∃ _ : s.sp.val ≠ 0, s.pop =
        .ok (s.stk[s.sp.val - 1]'(by omega), { s with sp := ⟨s.sp.val - 1, by omega⟩ })) ∨
      (s.sp.val = 0 ∧ s.pop = .error .stackUnderflow) := by
  unfold State.pop
  split
  · exact .inr ⟨by assumption, rfl⟩
  · exact .inl ⟨by assumption, rfl⟩

/-! ### The timers -/

/-- One more tick of a counter. -/
theorem countDown_succ (n : Nat) (b : Byte) :
    countDown (n + 1) b = countDown n (if b = 0x00#8 then b else b - 1#8) := by
  by_cases h : b = 0x00#8
  · simp [countDown, h]
  · have hb : b.toNat ≠ 0 := fun e => h (BitVec.eq_of_toNat_eq (by simpa using e))
    have hs : (b - 1#8).toNat = b.toNat - 1 := by
      have := b.isLt; rw [BitVec.toNat_sub]; simp; omega
    simp only [countDown, h, if_false, hs]
    split
    · next h1 =>
      have : b.toNat - 1 = 0 := by rw [← hs, h1]; rfl
      rw [show b.toNat - (n + 1) = 0 by omega]
    · congr 1; omega

/-- `State.ticks n` is `n` times the `tick` event (R256). -/
theorem ticks_eq_iterate (n : Nat) (s : State) : s.ticks n = State.tick^[n] s := by
  induction n generalizing s with
  | zero =>
    have h0 (b : Byte) : countDown 0 b = b := by
      unfold countDown; split
      · next h => exact h.symm
      · simp
    simp [State.ticks, h0]
  | succ n ih =>
    rw [Function.iterate_succ_apply, ← ih]
    simp [State.ticks, State.tick, countDown_succ]

/-- The sound level is on exactly while ST is not 0 (R29). -/
theorem State.soundActive_iff (s : State) : s.soundActive = true ↔ 0 < s.st.toNat := by
  simp [State.soundActive, BitVec.toNat_eq, Nat.pos_iff_ne_zero]

/-- The low 4 bits of a byte as a number. -/
theorem lowNibble_eq (b : Byte) : lowNibble b = b.toNat % 16 := by
  unfold lowNibble
  rw [BitVec.toNat_and]
  exact Nat.and_two_pow_sub_one_eq_mod b.toNat 4

end Sys2Proof.Machine
end

