-- ==== Sys2Proof/Laws/Cycle.lean ====
section
/-! SUPPORT. Everything a step can do, said once. -/

namespace Sys2Proof.Machine

/-- A meaning's answer changed by `f` is a next state exactly when the answer is one. -/
theorem mapNext_eq_next {f : State → State} {o : Out} {t : State} :
    mapNext f o = .next t ↔ ∃ u, o = .next u ∧ t = f u := by
  cases o <;> simp [mapNext, eq_comm]

/-- Everything a step event of the CPU can do: nothing when halted (R110), a fetch error (R111), an illegal word (R113),
or the decoded instruction from the advanced PC. -/
theorem cpuStep_cases (s : State) :
    (s.halted = true ∧ cpuStep s = .next s.stayHalted.nextEvent) ∨
    (s.halted = false ∧ ∃ e, s.fetch = .error e ∧ cpuStep s = .next (s.raise e).nextEvent) ∨
    (s.halted = false ∧ ∃ w r, s.fetch = .ok w ∧ decodeWord w = .error r ∧
      cpuStep s = .next (s.advancePc.raise (.illegalInstruction w)).nextEvent) ∨
    (s.halted = false ∧ ∃ w i, s.fetch = .ok w ∧ decodeWord w = .ok i ∧
      cpuStep s = mapNext State.nextEvent (exec i s.advancePc)) := by
  by_cases hh : s.halted = true
  · exact .inl ⟨hh, by simp [cpuStep, hh, mapNext]⟩
  · have hf : s.halted = false := by simpa using hh
    cases h1 : s.fetch with
    | error e => exact .inr (.inl ⟨hf, e, rfl, by simp [cpuStep, hf, fetchAndExecute, h1, mapNext]⟩)
    | ok w =>
      cases h2 : decodeWord w with
      | error r =>
        exact .inr (.inr (.inl ⟨hf, w, r, rfl, h2,
          by simp [cpuStep, hf, fetchAndExecute, h1, decodeAndExecute, h2, mapNext]⟩))
      | ok i =>
        exact .inr (.inr (.inr ⟨hf, w, i, rfl, h2,
          by simp [cpuStep, hf, fetchAndExecute, h1, decodeAndExecute, h2]⟩))

/-- The ticks before a step event, then that event. -/
theorem step_eq (s : State) : step s = cpuStep (s.ticks s.stimulus.ticks) := rfl

end Sys2Proof.Machine
end

