-- ==== Sys2Proof/Laws/Decode.lean ====
section
/-! SUPPORT. The fields of a word put together from its digits (spec/30_encoding.md R91, R92): each field of each format
is what was put there. -/

namespace Sys2Proof

theorem getLsbD_append_low {m n : Nat} (a : BitVec m) (b : BitVec n) (i : Nat) (h : i < n) :
    (a ++ b).getLsbD i = b.getLsbD i := by simp [BitVec.getLsbD_append, h]

theorem getLsbD_append_high {m n : Nat} (a : BitVec m) (b : BitVec n) (i : Nat) :
    (a ++ b).getLsbD (n + i) = a.getLsbD i := by simp [BitVec.getLsbD_append]

@[simp] theorem fieldOp_nnn (op : BitVec 4) (nnn : Addr12) : fieldOp (op ++ nnn) = op := by
  ext i hi
  simp only [fieldOp, BitVec.getElem_extractLsb']
  exact getLsbD_append_high op nnn i

@[simp] theorem fieldNNN_nnn (op : BitVec 4) (nnn : Addr12) : fieldNNN (op ++ nnn) = nnn := by
  ext i hi
  simp only [fieldNNN, BitVec.getElem_extractLsb', Nat.zero_add]
  exact getLsbD_append_low op nnn i hi

theorem xkk_eq_nnn (op : BitVec 4) (x : RegIx) (kk : Byte) : op ++ x ++ kk = (op ++ (x ++ kk : Addr12) : Word) :=
  BitVec.append_assoc

theorem xyn_eq_xkk (op : BitVec 4) (x y : RegIx) (n : BitVec 4) :
    op ++ x ++ y ++ n = (op ++ x ++ (y ++ n : Byte) : Word) := BitVec.append_assoc

@[simp] theorem fieldOp_xkk (op : BitVec 4) (x : RegIx) (kk : Byte) : fieldOp (op ++ x ++ kk) = op := by
  rw [xkk_eq_nnn]; exact fieldOp_nnn op _

@[simp] theorem fieldX_xkk (op : BitVec 4) (x : RegIx) (kk : Byte) : fieldX (op ++ x ++ kk) = x := by
  ext i hi
  simp only [fieldX, BitVec.getElem_extractLsb']
  exact (getLsbD_append_high (op ++ x) kk i).trans (getLsbD_append_low op x i hi)

@[simp] theorem fieldKK_xkk (op : BitVec 4) (x : RegIx) (kk : Byte) : fieldKK (op ++ x ++ kk) = kk := by
  ext i hi
  simp only [fieldKK, BitVec.getElem_extractLsb', Nat.zero_add]
  exact getLsbD_append_low (op ++ x) kk i hi

@[simp] theorem fieldOp_xyn (op : BitVec 4) (x y : RegIx) (n : BitVec 4) : fieldOp (op ++ x ++ y ++ n) = op := by
  rw [xyn_eq_xkk]; exact fieldOp_xkk op x _

@[simp] theorem fieldX_xyn (op : BitVec 4) (x y : RegIx) (n : BitVec 4) : fieldX (op ++ x ++ y ++ n) = x := by
  rw [xyn_eq_xkk]; exact fieldX_xkk op x _

@[simp] theorem fieldY_xyn (op : BitVec 4) (x y : RegIx) (n : BitVec 4) : fieldY (op ++ x ++ y ++ n) = y := by
  ext i hi
  simp only [fieldY, BitVec.getElem_extractLsb']
  exact (getLsbD_append_high (op ++ x ++ y) n i).trans (getLsbD_append_low (op ++ x) y i hi)

@[simp] theorem fieldN_xyn (op : BitVec 4) (x y : RegIx) (n : BitVec 4) : fieldN (op ++ x ++ y ++ n) = n := by
  ext i hi
  simp only [fieldN, BitVec.getElem_extractLsb', Nat.zero_add]
  exact getLsbD_append_low (op ++ x ++ y) n i hi

/-- A word is its high part followed by its low part. -/
theorem high_append_low {m n : Nat} (w : BitVec (m + n)) : w.extractLsb' n m ++ w.extractLsb' 0 n = w := by
  apply BitVec.eq_of_getLsbD_eq
  intro i hi
  rw [BitVec.getLsbD_append]
  split
  · simp [*]
  · rw [BitVec.getLsbD_extractLsb', show n + (i - n) = i by omega]
    simp; omega

/-- The two bytes of a word, high byte first, make the word. -/
theorem bytes_make_word (w : Word) : (w.extractLsb' 8 8 ++ w.extractLsb' 0 8 : Word) = w :=
  high_append_low (m := 8) (n := 8) w

/-- A word in the format NNN (R92). -/
theorem word_eq_nnn (w : Word) : w = fieldOp w ++ fieldNNN w := (high_append_low (m := 4) (n := 12) w).symm

/-- A word in the format XKK (R92). -/
theorem word_eq_xkk (w : Word) : w = fieldOp w ++ fieldX w ++ fieldKK w := by
  have h : fieldNNN w = fieldX w ++ fieldKK w := by
    have := (high_append_low (m := 4) (n := 8) (fieldNNN w)).symm
    rwa [show BitVec.extractLsb' 8 4 (fieldNNN w) = fieldX w from by
        ext i hi; simp [fieldNNN, fieldX],
      show BitVec.extractLsb' 0 8 (fieldNNN w) = fieldKK w from by
        ext i hi; simp [fieldNNN, fieldKK]] at this
  rw [xkk_eq_nnn, ← h]
  exact word_eq_nnn w

/-- A word in the formats XY and XYN (R92). -/
theorem word_eq_xyn (w : Word) : w = fieldOp w ++ fieldX w ++ fieldY w ++ fieldN w := by
  have h : fieldKK w = fieldY w ++ fieldN w := by
    have := (high_append_low (m := 4) (n := 4) (fieldKK w)).symm
    rwa [show BitVec.extractLsb' 4 4 (fieldKK w) = fieldY w from by
        ext i hi; simp [fieldKK, fieldY],
      show BitVec.extractLsb' 0 4 (fieldKK w) = fieldN w from by
        ext i hi; simp [fieldKK, fieldN]] at this
  rw [xyn_eq_xkk, ← h]
  exact word_eq_xkk w

end Sys2Proof
end

