-- ==== Sys2Proof/Laws/PerInstr.lean ====
section
/-! SUPPORT. What is proved of every instruction as syntax, one lemma a constructor. Family `OwnRow`: the encoding of an
instruction lies in its own row of the opcode map, bit for bit under the row's mask (spec/30_encoding.md R94). -/

namespace Sys2Proof.Laws.OwnRow

/-- The word of `i` selects the row of `i`: masked with the row's mask it is the row's match. -/
def Statement (i : Instr) : Prop := encode i &&& (opcodeRow i).1 = (opcodeRow i).2

theorem nnn_row (op : BitVec 4) (nnn : Addr12) : (op ++ nnn) &&& 0xF000#16 = op ++ 0x000#12 := by
  rw [show (0xF000#16) = 0xF#4 ++ 0x000#12 from rfl, BitVec.and_append]
  congr 1
  · exact BitVec.and_allOnes
  · exact BitVec.and_zero

theorem xkk_row (op : BitVec 4) (x : RegIx) (kk : Byte) : (op ++ x ++ kk) &&& 0xF000#16 = op ++ 0x0#4 ++ 0x00#8 := by
  rw [show (0xF000#16) = 0xF#4 ++ 0x0#4 ++ 0x00#8 from rfl, BitVec.and_append, BitVec.and_append]
  congr 1
  · congr 1
    · exact BitVec.and_allOnes
    · exact BitVec.and_zero
  · exact BitVec.and_zero

theorem x_row (op : BitVec 4) (x : RegIx) (sub : Byte) : (op ++ x ++ sub) &&& 0xF0FF#16 = op ++ 0x0#4 ++ sub := by
  rw [show (0xF0FF#16) = 0xF#4 ++ 0x0#4 ++ 0xFF#8 from rfl, BitVec.and_append, BitVec.and_append]
  congr 1
  · congr 1
    · exact BitVec.and_allOnes
    · exact BitVec.and_zero
  · exact BitVec.and_allOnes

theorem xyn_row (op : BitVec 4) (x y : RegIx) (n : BitVec 4) :
    (op ++ x ++ y ++ n) &&& 0xF000#16 = op ++ 0x0#4 ++ 0x0#4 ++ 0x0#4 := by
  rw [show (0xF000#16) = 0xF#4 ++ 0x0#4 ++ 0x0#4 ++ 0x0#4 from rfl, BitVec.and_append, BitVec.and_append,
    BitVec.and_append]
  congr 1
  · congr 1
    · congr 1
      · exact BitVec.and_allOnes
      · exact BitVec.and_zero
    · exact BitVec.and_zero
  · exact BitVec.and_zero

theorem xy_row (op : BitVec 4) (x y : RegIx) (sub : BitVec 4) :
    (op ++ x ++ y ++ sub) &&& 0xF00F#16 = op ++ 0x0#4 ++ 0x0#4 ++ sub := by
  rw [show (0xF00F#16) = 0xF#4 ++ 0x0#4 ++ 0x0#4 ++ 0xF#4 from rfl, BitVec.and_append, BitVec.and_append,
    BitVec.and_append]
  congr 1
  · congr 1
    · congr 1
      · exact BitVec.and_allOnes
      · exact BitVec.and_zero
    · exact BitVec.and_zero
  · exact BitVec.and_allOnes

theorem cls : Statement .cls := rfl
theorem ret : Statement .ret := rfl
theorem sys (nnn : Addr12) : Statement (.sys nnn) := nnn_row 0x0#4 nnn
theorem jp (nnn : Addr12) : Statement (.jp nnn) := nnn_row 0x1#4 nnn
theorem call (nnn : Addr12) : Statement (.call nnn) := nnn_row 0x2#4 nnn
theorem seKk (x : RegIx) (kk : Byte) : Statement (.seKk x kk) := xkk_row 0x3#4 x kk
theorem sneKk (x : RegIx) (kk : Byte) : Statement (.sneKk x kk) := xkk_row 0x4#4 x kk
theorem seVy (x y : RegIx) : Statement (.seVy x y) := xy_row 0x5#4 x y 0x0#4
theorem ldKk (x : RegIx) (kk : Byte) : Statement (.ldKk x kk) := xkk_row 0x6#4 x kk
theorem addKk (x : RegIx) (kk : Byte) : Statement (.addKk x kk) := xkk_row 0x7#4 x kk
theorem ldVy (x y : RegIx) : Statement (.ldVy x y) := xy_row 0x8#4 x y 0x0#4
theorem orVy (x y : RegIx) : Statement (.orVy x y) := xy_row 0x8#4 x y 0x1#4
theorem andVy (x y : RegIx) : Statement (.andVy x y) := xy_row 0x8#4 x y 0x2#4
theorem xorVy (x y : RegIx) : Statement (.xorVy x y) := xy_row 0x8#4 x y 0x3#4
theorem addVy (x y : RegIx) : Statement (.addVy x y) := xy_row 0x8#4 x y 0x4#4
theorem subVy (x y : RegIx) : Statement (.subVy x y) := xy_row 0x8#4 x y 0x5#4
theorem shr (x y : RegIx) : Statement (.shr x y) := xy_row 0x8#4 x y 0x6#4
theorem subnVy (x y : RegIx) : Statement (.subnVy x y) := xy_row 0x8#4 x y 0x7#4
theorem shl (x y : RegIx) : Statement (.shl x y) := xy_row 0x8#4 x y 0xE#4
theorem sneVy (x y : RegIx) : Statement (.sneVy x y) := xy_row 0x9#4 x y 0x0#4
theorem ldI (nnn : Addr12) : Statement (.ldI nnn) := nnn_row 0xA#4 nnn
theorem jpV0 (nnn : Addr12) : Statement (.jpV0 nnn) := nnn_row 0xB#4 nnn
theorem rnd (x : RegIx) (kk : Byte) : Statement (.rnd x kk) := xkk_row 0xC#4 x kk
theorem drw (x y : RegIx) (n : BitVec 4) : Statement (.drw x y n) := xyn_row 0xD#4 x y n
theorem skp (x : RegIx) : Statement (.skp x) := x_row 0xE#4 x 0x9E#8
theorem sknp (x : RegIx) : Statement (.sknp x) := x_row 0xE#4 x 0xA1#8
theorem ldVxDt (x : RegIx) : Statement (.ldVxDt x) := x_row 0xF#4 x 0x07#8
theorem ldVxK (x : RegIx) : Statement (.ldVxK x) := x_row 0xF#4 x 0x0A#8
theorem ldDt (x : RegIx) : Statement (.ldDt x) := x_row 0xF#4 x 0x15#8
theorem ldSt (x : RegIx) : Statement (.ldSt x) := x_row 0xF#4 x 0x18#8
theorem addI (x : RegIx) : Statement (.addI x) := x_row 0xF#4 x 0x1E#8
theorem ldF (x : RegIx) : Statement (.ldF x) := x_row 0xF#4 x 0x29#8
theorem ldB (x : RegIx) : Statement (.ldB x) := x_row 0xF#4 x 0x33#8
theorem storeRegs (x : RegIx) : Statement (.storeRegs x) := x_row 0xF#4 x 0x55#8
theorem loadRegs (x : RegIx) : Statement (.loadRegs x) := x_row 0xF#4 x 0x65#8

end Sys2Proof.Laws.OwnRow
end

