-- ==== Sys2Proof/Tests/Slice0.lean ====
section
/-! SUPPORT. Tests of one step or one decoding each, with the expected values of spec/95_test_vectors.md (the vector's
name stands in the comment), and for every statement with hypotheses a state and operands that meet them. -/

namespace Sys2Proof.Tests

open Sys2Proof Sys2Proof.Machine

/-! ### Helpers -/

/-- Boot with the outside's next act given: no tick, no key held, 0xA7 drawn. -/
def s0 : State := { State.reset with stimuli := [{ ticks := 0, keys := 0x0000#16, rnd := 0xA7#8, fbHint := false }] }

/-- V registers set in order. -/
def withV (s : State) (vs : List (RegIx × Byte)) : State := vs.foldl (fun s p => s.writeV p.1 p.2) s

/-- Bytes of memory set in order. -/
def withMem (s : State) (ws : List (Nat × Byte)) : State := { s with mem := s.mem.writeAll ws }

/-- A strict memory. -/
def strict (s : State) : State := { s with cfg := { s.cfg with addrMode := .strictBounds } }

/-- Recoverable errors are suppressed. -/
def permissive (s : State) : State := { s with cfg := { s.cfg with errPolicy := .permissive } }

/-- The shifts take `V[y]`. -/
def shiftVy (s : State) : State := { s with cfg := { s.cfg with shiftSrc := .vy } }

/-- FX55 and FX65 advance I. -/
def withInc (s : State) : State := { s with cfg := { s.cfg with ldstInc := true } }

/-- A pixel set. -/
def withPixel (s : State) (q : Fin 32) (c : Fin 64) : State := { s with fb := s.fb.setPixel q c true }

/-- Whether the answer is a next state with the property. -/
def nextHas (o : Host.Outcome State Fault Refusal) (p : State → Bool) : Bool :=
  match o with
  | .next t => p t
  | .fault _ => false
  | .refused _ => false

/-- One step of the word `w` placed where `s` fetches, and what holds after it. -/
def runs (s : State) (w : Nat) (p : State → Bool) : Bool := nextHas (step (s.withFetchWord 16 w)) p

/-- The outcome is Ok. -/
def ok (t : State) : Bool :=
  match t.outcome with
  | some (.ok _) => true
  | _ => false

/-- The pixels set, as a count. -/
def lit (t : State) : Nat := (t.fb.toList.map (fun row => row.toList.countP id)).sum

/-! ### Well-formed instructions -/

/-- R94: the word of SYS 0x0E0 is CLS. -/
theorem test_wellFormed_refuses_sys_0E0 : (Instr.sys 0x0E0#12).wellFormed = false := by decide
/-- R94: the word of SYS 0x0EE is RET. -/
theorem test_wellFormed_refuses_sys_0EE : (Instr.sys 0x0EE#12).wellFormed = false := by decide
theorem test_wellFormed_takes_the_others :
    (Instr.sys 0x0E1#12).wellFormed = true ∧ (Instr.jp 0x0E0#12).wellFormed = true ∧
    (Instr.drw 0xF#4 0xF#4 0xF#4).wellFormed = true := by decide

/-! ### Decoding: a word of each row, written out from the bit patterns of R94 -/

theorem test_decode_family0 :
    decodeWord 0b0000_0000_1110_0000#16 = .ok .cls ∧ decodeWord 0b0000_0000_1110_1110#16 = .ok .ret ∧
    decodeWord 0b0000_0001_0010_0011#16 = .ok (.sys 0x123#12) := by decide
theorem test_decode_jumps :
    decodeWord 0b0001_1010_1011_1100#16 = .ok (.jp 0xABC#12) ∧
    decodeWord 0b0010_1010_1011_1100#16 = .ok (.call 0xABC#12) ∧
    decodeWord 0b1011_0010_0011_0100#16 = .ok (.jpV0 0x234#12) := by decide
theorem test_decode_skips :
    decodeWord 0b0011_0001_0100_0010#16 = .ok (.seKk 0x1#4 0x42#8) ∧
    decodeWord 0b0100_0001_0100_0011#16 = .ok (.sneKk 0x1#4 0x43#8) ∧
    decodeWord 0b0101_0001_0010_0000#16 = .ok (.seVy 0x1#4 0x2#4) ∧
    decodeWord 0b1001_0001_0010_0000#16 = .ok (.sneVy 0x1#4 0x2#4) := by decide
theorem test_decode_constants :
    decodeWord 0b0110_0000_0000_0101#16 = .ok (.ldKk 0x0#4 0x05#8) ∧
    decodeWord 0b0111_0000_0000_0001#16 = .ok (.addKk 0x0#4 0x01#8) ∧
    decodeWord 0b1100_0001_0000_1111#16 = .ok (.rnd 0x1#4 0x0F#8) := by decide
theorem test_decode_family8_moves :
    decodeWord 0b1000_0001_0010_0000#16 = .ok (.ldVy 0x1#4 0x2#4) ∧
    decodeWord 0b1000_0001_0010_0001#16 = .ok (.orVy 0x1#4 0x2#4) ∧
    decodeWord 0b1000_0001_0010_0010#16 = .ok (.andVy 0x1#4 0x2#4) ∧
    decodeWord 0b1000_0001_0010_0011#16 = .ok (.xorVy 0x1#4 0x2#4) := by decide
theorem test_decode_family8_flags :
    decodeWord 0b1000_0001_0010_0100#16 = .ok (.addVy 0x1#4 0x2#4) ∧
    decodeWord 0b1000_0001_0010_0101#16 = .ok (.subVy 0x1#4 0x2#4) ∧
    decodeWord 0b1000_0001_0010_0110#16 = .ok (.shr 0x1#4 0x2#4) ∧
    decodeWord 0b1000_0001_0010_0111#16 = .ok (.subnVy 0x1#4 0x2#4) ∧
    decodeWord 0b1000_0001_0010_1110#16 = .ok (.shl 0x1#4 0x2#4) := by decide
theorem test_decode_index :
    decodeWord 0b1010_0010_0000_0000#16 = .ok (.ldI 0x200#12) ∧
    decodeWord 0b1111_0001_0001_1110#16 = .ok (.addI 0x1#4) ∧
    decodeWord 0b1111_0001_0010_1001#16 = .ok (.ldF 0x1#4) := by decide
theorem test_decode_memory :
    decodeWord 0b1111_0001_0011_0011#16 = .ok (.ldB 0x1#4) ∧
    decodeWord 0b1111_1111_0101_0101#16 = .ok (.storeRegs 0xF#4) ∧
    decodeWord 0b1111_0010_0110_0101#16 = .ok (.loadRegs 0x2#4) := by decide
theorem test_decode_draw : decodeWord 0b1101_0001_0010_0101#16 = .ok (.drw 0x1#4 0x2#4 0x5#4) := by decide
theorem test_decode_keys :
    decodeWord 0b1110_0001_1001_1110#16 = .ok (.skp 0x1#4) ∧
    decodeWord 0b1110_0001_1010_0001#16 = .ok (.sknp 0x1#4) ∧
    decodeWord 0b1111_0011_0000_1010#16 = .ok (.ldVxK 0x3#4) := by decide
theorem test_decode_timers :
    decodeWord 0b1111_0010_0000_0111#16 = .ok (.ldVxDt 0x2#4) ∧
    decodeWord 0b1111_0001_0001_0101#16 = .ok (.ldDt 0x1#4) ∧
    decodeWord 0b1111_0001_0001_1000#16 = .ok (.ldSt 0x1#4) := by decide
/-- XE3 to XE5b. -/
theorem test_decode_refuses :
    decodeWord 0x5121#16 = .error (.unrecognised 0x5121#16) ∧ decodeWord 0x9121#16 = .error (.unrecognised 0x9121#16) ∧
    decodeWord 0x8128#16 = .error (.unrecognised 0x8128#16) ∧ decodeWord 0x812F#16 = .error (.unrecognised 0x812F#16) ∧
    decodeWord 0xE1A0#16 = .error (.unrecognised 0xE1A0#16) ∧
    decodeWord 0xF156#16 = .error (.unrecognised 0xF156#16) := by decide
/-- R68, R90: the high byte comes first, and one byte is no instruction. -/
theorem test_decodeBytes :
    decodeBytes [0x12#8, 0x34#8, 0xFF#8] = .ok (.jp 0x234#12, [0xFF#8]) ∧
    decodeBytes [0x12#8] = .error .truncated := by decide
theorem test_decodeTableWord : decodeTableWord 16 0xD125 = some (.drw 0x1#4 0x2#4 0x5#4) := by decide

/-! ### Control flow -/

/-- XE2. -/
theorem test_sys : runs s0 0x0123 (fun t => decide (t.outcome = some (.err (.illegalInstruction 0x0123#16))) &&
    decide (t.pc = 0x202#16) && t.halted) = true := by decide
/-- CF1. -/
theorem test_jp : runs s0 0x1ABC (fun t => ok t && decide (t.pc = 0xABC#16)) = true := by decide
/-- CF3. -/
theorem test_call : runs s0 0x2ABC (fun t => ok t && decide (t.pc = 0xABC#16) && decide (t.sp.val = 1) &&
    decide (t.stk[0] = 0x202#16)) = true := by decide
/-- XE7. -/
theorem test_call_full : runs { s0 with sp := 16 } 0x2300 (fun t => decide (t.outcome = some (.err .stackOverflow)) &&
    decide (t.pc = 0x202#16) && decide (t.sp.val = 16) && t.halted) = true := by decide
/-- CF5. -/
theorem test_ret : runs { s0 with sp := 1, stk := s0.stk.set 0 0x0456#16 } 0x00EE (fun t => ok t &&
    decide (t.pc = 0x456#16) && decide (t.sp.val = 0) && decide (t.stk[0] = 0x0456#16)) = true := by decide
/-- XE6, under Permissive. -/
theorem test_ret_empty : runs (permissive s0) 0x00EE (fun t =>
    decide (t.outcome = some (.err .stackUnderflow)) && decide (t.pc = 0x202#16) && !t.halted &&
    decide (t.errLog = [.stackUnderflow])) = true := by decide
/-- CF6, CF7. -/
theorem test_seKk : runs (withV s0 [(1, 0x42#8)]) 0x3142 (fun t => decide (t.pc = 0x204#16)) = true ∧
    runs (withV s0 [(1, 0x42#8)]) 0x3143 (fun t => decide (t.pc = 0x202#16)) = true := by decide
/-- CF17. -/
theorem test_seKk_end : runs { s0 with pc := 0xFFE#16 } 0x3100 (fun t => decide (t.pc = 0x1002#16)) = true := by decide
/-- CF8, CF9. -/
theorem test_sneKk : runs (withV s0 [(1, 0x42#8)]) 0x4142 (fun t => decide (t.pc = 0x202#16)) = true ∧
    runs (withV s0 [(1, 0x42#8)]) 0x4143 (fun t => decide (t.pc = 0x204#16)) = true := by decide
/-- CF10, CF11. -/
theorem test_seVy : runs (withV s0 [(1, 7#8), (2, 7#8)]) 0x5120 (fun t => decide (t.pc = 0x204#16)) = true ∧
    runs (withV s0 [(1, 7#8), (2, 8#8)]) 0x5120 (fun t => decide (t.pc = 0x202#16)) = true := by decide
/-- CF10, CF11. -/
theorem test_sneVy : runs (withV s0 [(1, 7#8), (2, 7#8)]) 0x9120 (fun t => decide (t.pc = 0x202#16)) = true ∧
    runs (withV s0 [(1, 7#8), (2, 8#8)]) 0x9120 (fun t => decide (t.pc = 0x204#16)) = true := by decide
/-- CF15, and CF16: the register is V0. -/
theorem test_jpV0 : runs (withV s0 [(0, 0xFF#8)]) 0xBFFF (fun t => decide (t.pc = 0x10FE#16)) = true ∧
    runs (withV s0 [(1, 0xFF#8)]) 0xB134 (fun t => decide (t.pc = 0x134#16)) = true := by decide

/-! ### Loads and arithmetic -/

/-- AL1. -/
theorem test_ldKk : runs s0 0x61AB (fun t => ok t && decide (t.readV 1 = 0xAB#8) && decide (t.pc = 0x202#16)) = true := by
  decide
/-- AL2. -/
theorem test_addKk : runs (withV s0 [(1, 0x01#8), (0xF, 0x33#8)]) 0x71FF (fun t => decide (t.readV 1 = 0x00#8) &&
    decide (t.readV 0xF = 0x33#8)) = true := by decide
/-- AL4. -/
theorem test_ldVy : runs (withV s0 [(2, 0x77#8)]) 0x8120 (fun t => decide (t.readV 1 = 0x77#8)) = true := by decide
/-- AL18. -/
theorem test_orVy : runs (withV s0 [(1, 0xF0#8), (2, 0x0F#8), (0xF, 0xAA#8)]) 0x8121 (fun t =>
    decide (t.readV 1 = 0xFF#8) && decide (t.readV 0xF = 0xAA#8)) = true := by decide
/-- AL19. -/
theorem test_andVy : runs (withV s0 [(1, 0xFC#8), (2, 0x3F#8), (0xF, 0xAA#8)]) 0x8122 (fun t =>
    decide (t.readV 1 = 0x3C#8) && decide (t.readV 0xF = 0xAA#8)) = true := by decide
/-- AL20. -/
theorem test_xorVy : runs (withV s0 [(1, 0xFF#8), (2, 0x0F#8), (0xF, 0xAA#8)]) 0x8123 (fun t =>
    decide (t.readV 1 = 0xF0#8) && decide (t.readV 0xF = 0xAA#8)) = true := by decide
/-- AL7. -/
theorem test_addVy_to_vf : runs (withV s0 [(0xF, 0xF0#8), (1, 0x20#8)]) 0x8F14 (fun t =>
    decide (t.readV 0xF = 0x01#8)) = true := by decide
/-- AL8. -/
theorem test_addVy_from_vf : runs (withV s0 [(1, 0x10#8), (0xF, 0xF5#8)]) 0x81F4 (fun t =>
    decide (t.readV 1 = 0x05#8) && decide (t.readV 0xF = 0x01#8)) = true := by decide
/-- AL11. -/
theorem test_subVy_borrow : runs (withV s0 [(1, 5#8), (2, 7#8)]) 0x8125 (fun t =>
    decide (t.readV 1 = 0xFE#8) && decide (t.readV 0xF = 0x00#8)) = true := by decide
/-- AL10. -/
theorem test_subVy_equal : runs (withV s0 [(1, 7#8), (2, 7#8)]) 0x8125 (fun t =>
    decide (t.readV 1 = 0x00#8) && decide (t.readV 0xF = 0x01#8)) = true := by decide
/-- AL15. -/
theorem test_subnVy : runs (withV s0 [(1, 5#8), (2, 7#8)]) 0x8127 (fun t =>
    decide (t.readV 1 = 0x02#8) && decide (t.readV 0xF = 0x01#8)) = true := by decide
/-- AL16. -/
theorem test_subnVy_borrow : runs (withV s0 [(1, 7#8), (2, 5#8)]) 0x8127 (fun t =>
    decide (t.readV 1 = 0xFE#8) && decide (t.readV 0xF = 0x00#8)) = true := by decide
/-- SH1, `shift_src` = VX. -/
theorem test_shr_vx : runs (withV s0 [(1, 0x05#8), (2, 0x80#8)]) 0x8126 (fun t =>
    decide (t.readV 1 = 0x02#8) && decide (t.readV 0xF = 0x01#8) && decide (t.readV 2 = 0x80#8)) = true := by decide
/-- SH1, `shift_src` = VY. -/
theorem test_shr_vy : runs (shiftVy (withV s0 [(1, 0x05#8), (2, 0x80#8)])) 0x8126 (fun t =>
    decide (t.readV 1 = 0x40#8) && decide (t.readV 0xF = 0x00#8)) = true := by decide
/-- SH2, `shift_src` = VX. -/
theorem test_shl_vx : runs (withV s0 [(1, 0x81#8), (2, 0x40#8)]) 0x812E (fun t =>
    decide (t.readV 1 = 0x02#8) && decide (t.readV 0xF = 0x01#8) && decide (t.readV 2 = 0x40#8)) = true := by decide
/-- SH4, `shift_src` = VY. -/
theorem test_shl_vf : runs (shiftVy (withV s0 [(0xF, 0x81#8), (1, 0x7F#8)])) 0x8F1E (fun t =>
    decide (t.readV 0xF = 0x00#8)) = true := by decide
/-- AL22. -/
theorem test_rnd : runs s0 0xC10F (fun t => decide (t.readV 1 = 0x07#8)) = true := by decide

/-! ### Index register and memory -/

/-- MX1. -/
theorem test_ldI : runs s0 0xAFFF (fun t => ok t && decide (t.i = 0x0FFF#16)) = true := by decide
/-- MX2. -/
theorem test_addI : runs (withV { s0 with i := 0x0FFF#16 } [(1, 2#8)]) 0xF11E (fun t =>
    decide (t.i = 0x1001#16) && decide (t.readV 0xF = 0x00#8)) = true := by decide
/-- MX3. -/
theorem test_addI_masked : runs (withV { s0 with i := 0x0FFF#16, cfg := { s0.cfg with iMask12 := true } } [(1, 2#8)])
    0xF11E (fun t => decide (t.i = 0x0001#16)) = true := by decide
/-- MX6. -/
theorem test_ldF : runs (withV s0 [(1, 0x2B#8)]) 0xF129 (fun t => decide (t.i = 0x0087#16)) = true := by decide
/-- MX7. -/
theorem test_ldB : runs (withV { s0 with i := 0x300#16 } [(1, 254#8)]) 0xF133 (fun t =>
    decide (t.readByte 0x300 = 2#8) && decide (t.readByte 0x301 = 5#8) && decide (t.readByte 0x302 = 4#8) &&
    decide (t.i = 0x300#16)) = true := by decide
/-- MX9. -/
theorem test_ldB_strict : runs (strict (withV { s0 with i := 0xFFE#16 } [(1, 77#8)])) 0xF133 (fun t =>
    decide (t.outcome = some (.err (.outOfBounds .memWrite 0x1000))) && decide (t.readByte 0xFFE = 0#8) &&
    decide (t.pc = 0x202#16) && t.halted) = true := by decide
/-- MX18: the instruction overwrites itself. -/
theorem test_storeRegs : runs (withV { s0 with i := 0x200#16 } [(0, 0x12#8)]) 0xF155 (fun t =>
    decide (t.readByte 0x200 = 0x12#8) && decide (t.readByte 0x201 = 0x00#8) && decide (t.i = 0x200#16)) = true := by
  decide
/-- MX11, the last register and the byte after it. -/
theorem test_storeRegs_inc : runs (withInc (withV { s0 with i := 0x400#16 } [(0xF, 0x1F#8)])) 0xFF55 (fun t =>
    decide (t.readByte 0x40F = 0x1F#8) && decide (t.readByte 0x410 = 0x00#8) && decide (t.i = 0x410#16)) = true := by
  decide
/-- MX14. -/
theorem test_loadRegs : runs (withMem { s0 with i := 0xFFF#16 } [(0xFFF, 0x11#8), (0, 0x22#8)]) 0xF165 (fun t =>
    decide (t.readV 0 = 0x11#8) && decide (t.readV 1 = 0x22#8) && decide (t.i = 0xFFF#16)) = true := by decide
/-- MX15. -/
theorem test_loadRegs_strict : runs (strict (withMem { s0 with i := 0xFFF#16 } [(0xFFF, 0x11#8)])) 0xF165 (fun t =>
    decide (t.outcome = some (.err (.outOfBounds .memRead 0x1000))) && decide (t.readV 0 = 0x00#8)) = true := by decide

/-! ### Display -/

/-- DR8. -/
theorem test_cls : runs (withPixel s0 31 63) 0x00E0 (fun t => decide (lit t = 0) &&
    decide (t.outcome = some (.ok { fbChanged := true, soundActive := false }))) = true := by decide
/-- DR1. -/
theorem test_drw_wraps : runs (withMem (withV { s0 with i := 0x300#16 } [(1, 60#8), (2, 31#8)])
    [(0x300, 0xFF#8), (0x301, 0x81#8)]) 0xD122 (fun t => decide (lit t = 10) && t.fb.pixel 31 3 && t.fb.pixel 0 60 &&
    t.fb.pixel 0 3 && decide (t.readV 0xF = 0x00#8)) = true := by decide
/-- DR3. -/
theorem test_drw_collides : runs (withPixel (withMem { s0 with i := 0x300#16 } [(0x300, 0xC0#8)]) 0 1) 0xD121 (fun t =>
    decide (lit t = 1) && t.fb.pixel 0 0 && decide (t.readV 0xF = 0x01#8)) = true := by decide

/-! ### Timers and keys -/

/-- TM2. -/
theorem test_ldVxDt : runs { s0 with dt := 0x3C#8 } 0xF207 (fun t => decide (t.readV 2 = 0x3C#8) &&
    decide (t.dt = 0x3C#8)) = true := by decide
/-- TM1. -/
theorem test_ldDt : runs (withV s0 [(1, 0x3C#8)]) 0xF115 (fun t => decide (t.dt = 0x3C#8)) = true := by decide
/-- TM3. -/
theorem test_ldSt : runs (withV s0 [(1, 2#8)]) 0xF118 (fun t => decide (t.st = 2#8) &&
    decide (t.outcome = some (.ok { fbChanged := false, soundActive := true }))) = true := by decide
/-- KY3, KY2. -/
theorem test_skp : runs (withV (s0.setKeys 0x0020#16) [(1, 0x15#8)]) 0xE19E (fun t => decide (t.pc = 0x204#16)) = true ∧
    runs (withV s0 [(1, 5#8)]) 0xE19E (fun t => decide (t.pc = 0x202#16)) = true := by decide
/-- KY4, KY5. -/
theorem test_sknp : runs (withV (s0.setKeys 0x0020#16) [(1, 5#8)]) 0xE1A1 (fun t => decide (t.pc = 0x202#16)) = true ∧
    runs (withV (s0.setKeys 0x0020#16) [(1, 4#8)]) 0xE1A1 (fun t => decide (t.pc = 0x204#16)) = true := by decide
/-- KY6. -/
theorem test_ldVxK_waits : runs (withV s0 [(3, 9#8)]) 0xF30A (fun t => decide (t.outcome = some .waitingForKey) &&
    decide (t.pc = 0x200#16) && decide (t.readV 3 = 9#8)) = true := by decide
/-- KY7. -/
theorem test_ldVxK : runs (withV (s0.setKeys 0x8010#16) [(3, 9#8)]) 0xF30A (fun t => ok t &&
    decide (t.readV 3 = 4#8) && decide (t.pc = 0x202#16)) = true := by decide
/-- TM5, TM7. -/
theorem test_tick : ({ s0 with dt := 2#8 }.tick).dt = 1#8 ∧ ({ s0 with dt := 2#8 }.tick).st = 0#8 := by decide
/-- The ticks before a step event take effect before its instruction reads DT (R256, R261). -/
theorem test_ticks_before_step : runs { s0 with dt := 5#8, stimuli := [{ s0.stimulus with ticks := 2 }] } 0xF207
    (fun t => decide (t.readV 2 = 3#8)) = true := by decide

/-! ### The cycle -/

/-- XE8. -/
theorem test_fetch_wraps : runs { s0 with pc := 0xFFF#16 } 0x6001 (fun t => decide (t.readV 0 = 1#8) &&
    decide (t.pc = 0x1001#16)) = true := by decide
/-- XE9. -/
theorem test_fetch_strict : runs (strict { s0 with pc := 0xFFF#16 }) 0x6001 (fun t => decide (t.pc = 0xFFF#16) &&
    decide (t.outcome = some (.err (.outOfBounds .fetch 0x1000)))) = true := by decide
/-- XE12. -/
theorem test_halted : nextHas (step { s0 with halted := true, err := some .stackOverflow }) (fun t =>
    decide (t.outcome = some (.halted (some .stackOverflow))) && decide (t.pc = 0x200#16)) = true := by decide
/-- XE1, XE3: from reset, with nothing loaded, the first word is 0x0000. -/
theorem test_illegal : nextHas (step s0) (fun t => decide (t.outcome = some (.err (.illegalInstruction 0x0000#16)))) = true ∧
    runs s0 0x5121 (fun t => decide (t.err = some (.illegalInstruction 0x5121#16)) && decide (t.pc = 0x202#16)) = true := by
  decide

/-! ### The host and the sequencer -/

/-- S1, the load. -/
theorem test_boot : nextHas (boot cfg0 [0x60#8, 0x05#8, 0x70#8, 0x01#8]) (fun t => decide (t.readByte 0x200 = 0x60#8) &&
    decide (t.readByte 0x203 = 0x01#8) && decide (t.readByte 0x204 = 0x00#8) && decide (t.pc = 0x200#16)) = true := by decide
/-- XE14, XE15: the image's length decides. -/
theorem test_romTooLarge : loadRom (List.replicate 3585 0x00#8) State.reset = .fault (.romTooLarge 3585) := by
  have h : (List.replicate 3585 0x00#8).length = 3585 := List.length_replicate
  unfold loadRom
  rw [h]
  rfl
/-- SQ1: one tick is due after a sixtieth of a second. -/
theorem test_ticks_due : ticksDue s0 (1 / 60) = 1 := by
  have h : ((0 : Rat) + 1 / 60) * (60 : Nat) = 1 := by norm_num
  show ((((0 : Rat) + 1 / 60) * (60 : Nat)).floor).toNat = 1
  rw [h]
  rfl
/-- SQ1: eight steps are due, and 1/1500 of a second is carried. -/
theorem test_steps_due : stepsDue s0 (1 / 60) = 8 ∧ carryOver (1 / 60) 500 = 1 / 1500 := by
  have h : wholePeriods (1 / 60) 500 = 8 := by
    show ⌊(1 / 60 : Rat) * (500 : Nat)⌋.toNat = 8
    norm_num
    rfl
  constructor
  · show wholePeriods (0 + 1 / 60) 500 = 8
    rw [zero_add]
    exact h
  · unfold carryOver
    rw [h]
    norm_num

/-! ### The hypotheses of the statements, met: at the boundary of each clause -/

/-- A halted CPU whose outside is given. -/
def haltedState : State := { s0 with halted := true, err := some .stackOverflow, dt := 5#8 }

theorem test_witness_DecodeOfEncode : (Instr.sys 0x0EF#12).wellFormed = true ∧ (Instr.shl 0xF#4 0x0#4).wellFormed = true := by
  decide
theorem test_witness_EncodeOfDecode : decodeWord 0x0FFF#16 = .ok (.sys 0xFFF#12) ∧ decodeWord 0xFF65#16 = .ok (.loadRegs 0xF#4) := by
  decide
theorem test_witness_UnrecognisedWords : (∃ r, decodeWord 0x900F#16 = .error r) ∧ (∃ r, decodeWord 0xF066#16 = .error r) :=
  ⟨⟨_, rfl⟩, ⟨_, rfl⟩⟩
/-- The last address a strict fetch reads, and the first one that wraps. -/
theorem test_witness_StepRuns :
    ((strict { s0.withFetchWord 16 0 with pc := 0xFFE#16 }).halted = false ∧
      (strict { s0 with pc := 0xFFE#16 }).pc.toNat + 1 < 4096 ∧
      decodeWord ((strict (withMem { s0 with pc := 0xFFE#16 } [(0xFFE, 0x60#8), (0xFFF, 0x01#8)])).readByte 0xFFE ++
        (strict (withMem { s0 with pc := 0xFFE#16 } [(0xFFE, 0x60#8), (0xFFF, 0x01#8)])).readByte 0xFFF) =
          .ok (.ldKk 0x0#4 0x01#8)) ∧
    (({ s0 with pc := 0xFFF#16 } : State).cfg.addrMode = .wraparound ∧
      decodeWord ((withMem { s0 with pc := 0xFFF#16 } [(0xFFF, 0x60#8), (0, 0x01#8)]).readByte 0xFFF ++
        (withMem { s0 with pc := 0xFFF#16 } [(0xFFF, 0x60#8), (0, 0x01#8)]).readByte 0) = .ok (.ldKk 0x0#4 0x01#8)) := by
  decide
theorem test_witness_Halted : haltedState.halted = true := by decide
theorem test_witness_IllegalWord : (s0.withFetchWord 16 0x5121).halted = false ∧
    (s0.withFetchWord 16 0x5121).fetch = .ok 0x5121#16 ∧ decodeWord 0x5121#16 = .error (.unrecognised 0x5121#16) :=
  ⟨rfl, rfl, rfl⟩
/-- Both clauses of the address: PC at 0xFFF, and at 0x1000. -/
theorem test_witness_FetchError :
    ((strict { s0 with pc := 0xFFF#16 }).halted = false ∧ (strict { s0 with pc := 0xFFF#16 }).cfg.addrMode = .strictBounds ∧
      0xFFF ≤ (strict { s0 with pc := 0xFFF#16 }).pc.toNat ∧
      ExecError.outOfBounds .fetch 0x1000 = .outOfBounds .fetch (if (strict { s0 with pc := 0xFFF#16 }).pc.toNat = 0xFFF
        then 0x1000 else (strict { s0 with pc := 0xFFF#16 }).pc.toNat)) ∧
    ((strict { s0 with pc := 0x1001#16 }).halted = false ∧
      (strict { s0 with pc := 0x1001#16 }).cfg.addrMode = .strictBounds ∧
      0xFFF ≤ (strict { s0 with pc := 0x1001#16 }).pc.toNat ∧
      ExecError.outOfBounds .fetch 0x1001 = .outOfBounds .fetch (if (strict { s0 with pc := 0x1001#16 }).pc.toNat = 0xFFF
        then 0x1000 else (strict { s0 with pc := 0x1001#16 }).pc.toNat)) := by decide
/-- Both clauses: an error of the fetch, and one of the execution. -/
theorem test_witness_ErrorsArePrecise :
    (∃ t, step (strict { s0 with pc := 0xFFF#16 }) = .next t ∧ t.outcome = some (.err (.outOfBounds .fetch 0x1000))) ∧
    (∃ t, step (s0.withFetchWord 16 0x00EE) = .next t ∧ t.outcome = some (.err .stackUnderflow)) :=
  ⟨⟨_, rfl, by decide⟩, ⟨_, rfl, by decide⟩⟩
theorem test_witness_OutOfBounds : ∃ t, (strict { s0 with i := 0xFFE#16 }).halted = false ∧
    step ((strict { s0 with i := 0xFFE#16 }).withFetchWord 16 0xF133) = .next t ∧
    t.outcome = some (.err (.outOfBounds .memWrite 0x1000)) := ⟨_, rfl, rfl, by decide⟩
/-- The same under Permissive: the error is logged and the CPU is not halted. -/
theorem test_witness_OutOfBounds_permissive :
    ∃ t, (permissive (strict { s0 with i := 0xFFE#16 })).halted = false ∧
      step ((permissive (strict { s0 with i := 0xFFE#16 })).withFetchWord 16 0xF133) = .next t ∧
      t.outcome = some (.err (.outOfBounds .memWrite 0x1000)) ∧ t.halted = false ∧
      t.errLog = [.outOfBounds .memWrite 0x1000] := ⟨_, rfl, rfl, by decide, by decide, by decide⟩
/-- The last I and PC at which FX33, DXYN, FX55 and the fetch stay inside under StrictBounds. -/
theorem test_outOfBounds_boundaries :
    runs (strict { s0 with i := 4093#16 }) 0xF133 ok = true ∧ runs (strict { s0 with i := 4094#16 }) 0xD122 ok = true ∧
    runs (strict { s0 with i := 4095#16 }) 0xD122 ok = false ∧ runs (strict { s0 with i := 0xFFFF#16 }) 0xD120 ok = true ∧
    runs (strict { s0 with i := 4080#16 }) 0xFF55 ok = true ∧ runs (strict { s0 with i := 4081#16 }) 0xFF55 ok = false ∧
    runs (strict { s0 with pc := 0xFFE#16 }) 0x6001 ok = true := by decide
theorem test_witness_OnlyAFatalErrorHalts : ∃ t, s0.halted = false ∧ step s0 = .next t ∧ t.halted = true :=
  ⟨_, rfl, rfl, by decide⟩
/-- Each clause about VF: left alone, a flag, a destination. -/
theorem test_witness_VfChanges : (∃ t, exec (.ldKk 1 5#8) s0 = .next t) ∧ (∃ t, exec (.shr 1 2) s0 = .next t) ∧
    (∃ t, exec (.loadRegs 0xF#4) s0 = .next t) := ⟨⟨_, rfl⟩, ⟨_, rfl⟩, ⟨_, rfl⟩⟩
theorem test_witness_IndexChanges : (∃ t, exec .cls s0 = .next t) ∧ (∃ t, exec (.ldF 1) s0 = .next t) ∧
    (∃ t, (withInc s0).cfg.ldstInc = true ∧ exec (.storeRegs 1) (withInc s0) = .next t) :=
  ⟨⟨_, rfl⟩, ⟨_, rfl⟩, ⟨_, rfl, rfl⟩⟩
theorem test_witness_StackChanges : (∃ t, exec (.jp 0x300#12) s0 = .next t) ∧ (∃ t, exec (.call 0x300#12) s0 = .next t) ∧
    (∃ t, exec .ret { s0 with sp := 1 } = .next t) := ⟨⟨_, rfl⟩, ⟨_, rfl⟩, ⟨_, rfl⟩⟩
/-- Each clause: FX15, FX18, neither; and the step events that run FX15, FX18, and no instruction. -/
theorem test_witness_TimersChange : (∃ t, exec (.ldDt 1) s0 = .next t) ∧ (∃ t, exec (.ldSt 1) s0 = .next t) ∧
    (∃ t, exec (.ldVxDt 1) s0 = .next t) ∧
    (∃ t, cpuStep (s0.withFetchWord 16 0xF115) = .next t) ∧ (∃ t, cpuStep (s0.withFetchWord 16 0xF118) = .next t) ∧
    (∃ t, cpuStep (s0.withFetchWord 16 0x5121) = .next t) ∧ (∃ t, cpuStep haltedState = .next t) :=
  ⟨⟨_, rfl⟩, ⟨_, rfl⟩, ⟨_, rfl⟩, ⟨_, rfl⟩, ⟨_, rfl⟩, ⟨_, rfl⟩, ⟨_, rfl⟩⟩
theorem test_witness_ScreenChanges : (∃ t, exec .cls s0 = .next t) ∧ (∃ t, exec (.drw 1 2 0xF#4) s0 = .next t) :=
  ⟨⟨_, rfl⟩, ⟨_, rfl⟩⟩
theorem test_witness_MemoryChanges : (∃ t, exec (.ldB 1) s0 = .next t) ∧ (∃ t, exec (.storeRegs 0xF#4) s0 = .next t) ∧
    (∃ t, exec (.loadRegs 0xF#4) s0 = .next t) := ⟨⟨_, rfl⟩, ⟨_, rfl⟩, ⟨_, rfl⟩⟩
theorem test_witness_PcChanges : (∃ t, exec (.jpV0 0xFFF#12) s0 = .next t) ∧ (∃ t, exec (.seKk 1 0#8) s0 = .next t) ∧
    (∃ t, exec (.ldVxK 1) s0 = .next t) := ⟨⟨_, rfl⟩, ⟨_, rfl⟩, ⟨_, rfl⟩⟩
theorem test_witness_Sys : (0x0E1#12 : Addr12) ≠ 0x0E0#12 ∧ (0x0E1#12 : Addr12) ≠ 0x0EE#12 ∧
    (0x000#12 : Addr12) ≠ 0x0E0#12 ∧ (0x000#12 : Addr12) ≠ 0x0EE#12 := by decide
/-- Both clauses: 15 entries in use, and 16. -/
theorem test_witness_Call : ({ s0 with sp := 15 } : State).sp.val < 16 ∧ ({ s0 with sp := 16 } : State).sp.val = 16 := by
  decide
/-- Both clauses: 16 and 1 entries in use, and none. -/
theorem test_witness_Ret : ({ s0 with sp := 16 } : State).sp.val = 15 + 1 ∧ ({ s0 with sp := 1 } : State).sp.val = 0 + 1 ∧
    s0.sp.val = 0 := by decide
theorem test_witness_ReturnUndoesCall : ∃ t, ({ s0 with sp := 15 } : State).sp.val < 16 ∧
    exec (.call 0x300#12) { s0 with sp := 15 } = .next t ∧ SameStack t t := ⟨_, by decide, rfl, rfl, rfl⟩
/-- A flag instruction with x other than 15, both shift straps, and the carry and borrow at their boundary. -/
theorem test_witness_Flags : (0xE#4 : RegIx) ≠ 0xF#4 ∧
    (if (shiftVy s0).cfg.shiftSrc = .vy then (shiftVy s0).readV 2 else (shiftVy s0).readV 1) = 0#8 ∧
    addCarry 0xFF#8 0x01#8 = true ∧ addCarry 0xFF#8 0x00#8 = false ∧ noBorrow 5#8 5#8 = true ∧ noBorrow 4#8 5#8 = false := by
  decide
/-- The last I at which FX33 is in reach under StrictBounds. -/
theorem test_witness_Bcd : InReach (strict { s0 with i := 4093#16 }) 3 := by
  intro k hk; right; show 4093 + k < 4096; omega
/-- The last I at which FF55 and FF65 are in reach under StrictBounds; under Wraparound every I is. -/
theorem test_witness_RegisterRange : InReach (strict { s0 with i := 4080#16 }) ((0xF#4 : RegIx).toNat + 1) ∧
    InReach { s0 with i := 0xFFFF#16 } ((0xF#4 : RegIx).toNat + 1) :=
  ⟨fun k hk => .inr (by change k < 16 at hk; show 4080 + k < 4096; omega), fun _ _ => .inl rfl⟩
/-- Each clause, where the first address outside is not the first of the run. -/
theorem test_witness_MemoryErrors : FirstOutOfReach (strict { s0 with i := 4094#16 }) (0xF#4 : BitVec 4).toNat 2 ∧
    FirstOutOfReach (strict { s0 with i := 4094#16 }) 3 2 ∧
    FirstOutOfReach (strict { s0 with i := 4094#16 }) ((0x2#4 : RegIx).toNat + 1) 2 := by
  refine ⟨⟨rfl, by decide, by decide, ?_⟩, ⟨rfl, by decide, by decide, ?_⟩, ⟨rfl, by decide, by decide, ?_⟩⟩ <;>
  · intro j hj; show 4094 + j < 4096; omega
theorem test_witness_StoreIsSeen : ∃ t, (0x1#4 : RegIx).toNat = (0x0#4 : RegIx).toNat + 1 ∧
    (0x1#4 : RegIx).toNat ≤ (0x1#4 : RegIx).toNat ∧ InReach { s0 with i := 0xFFF#16 } ((0x1#4 : RegIx).toNat + 1) ∧
    ({ s0 with i := 0xFFF#16 } : State).i.toNat + (0x0#4 : RegIx).toNat < 65536 ∧
    exec (.storeRegs 0x1#4) { s0 with i := 0xFFF#16 } = .next t :=
  ⟨_, by decide, by decide, fun _ _ => .inl rfl, by decide, rfl⟩
theorem test_witness_ClearScreen : (withPixel s0 31 63).fb.pixel 31 63 = true := by decide
/-- A 1 bit over a set pixel, over the last pixel of the screen, and a reach that ends at the last byte. -/
theorem test_witness_Draw :
    InReach (strict { s0 with i := 4081#16 }) (0xF#4 : BitVec 4).toNat ∧
    (DrwCovers (withMem (withV { s0 with i := 0x300#16 } [(1, 63#8), (2, 31#8)]) [(0x300, 0x80#8)]) 1 2 1 31 63 ∧
      (withPixel s0 31 63).fb.pixel 31 63 = true) :=
  ⟨fun k hk => .inr (by change k < 15 at hk; show 4081 + k < 4096; omega), ⟨0, by decide, 0, by decide, by decide⟩, by decide⟩
theorem test_witness_DrawTwice : ([0xF0#8, 0x90#8, 0x90#8, 0x90#8, 0xF0#8] : List Byte).length ≤ 15 ∧
    (drawSprite 62 30 [0xC0#8] s0.fb).2 = false ∧ (drawSprite 62 30 [0xC0#8] (drawSprite 62 30 [0xC0#8] s0.fb).1).2 = true := by
  decide
/-- Both clauses: no key, and the lowest of two keys. -/
theorem test_witness_KeyWait : s0.stimulus.keys = 0x0000#16 ∧ ((s0.setKeys 0x8010#16).stimulus.keys.getLsbD 4 = true ∧
    ∀ j < 4, (s0.setKeys 0x8010#16).stimulus.keys.getLsbD j = false) := by decide
/-- Both clauses of the length, at their boundary. -/
theorem test_witness_RomLoad : State.reset.eventNo = 0 ∧ 3584 < (List.replicate 3585 (0x00#8 : Byte)).length ∧
    (List.replicate 3584 (0x00#8 : Byte)).length ≤ 3584 := by
  rw [List.length_replicate, List.length_replicate]; decide
theorem test_witness_Reset : State.reset = State.resetWith cfg0 := rfl
theorem test_witness_StrapsNeverChange : (∃ t, step s0 = .next t) ∧ (∃ t r, advance 0 [] s0 = .next (t, r)) := by
  refine ⟨⟨_, rfl⟩, ?_⟩
  have h (n : Nat) : wholePeriods (0 + 0) n = 0 := by unfold wholePeriods; simp; rfl
  unfold advance ticksDue stepsDue
  rw [show s0.accT = 0 from rfl, show s0.accC = 0 from rfl, h, h]
  simp [s0, State.reset, State.resetWith, cfg0, Cfg.ok, runEvents]
theorem test_witness_StrapsNeverChange_load : (∃ t, loadRom [0x12#8] State.reset = .next t) ∧
    (∃ t, boot cfg0 [0x12#8] = .next t) := ⟨⟨_, rfl⟩, ⟨_, rfl⟩⟩
theorem test_witness_SetKeys : (s0.withFetchWord 16 0xE19E).halted = false ∧
    (s0.withFetchWord 16 0xE19E).fetch = .ok 0xE19E#16 ∧ decodeWord 0xE19E#16 = .ok (.skp 0x1#4) := ⟨rfl, rfl, rfl⟩
theorem test_witness_Invariant : s0.Inv ∧ ∃ t, step s0 = .next t :=
  ⟨⟨rfl, by decide, rfl, fun _ h => (nomatch h), fun _ h => (nomatch h)⟩, ⟨_, rfl⟩⟩
theorem test_witness_AdvanceCarries : (0 : Rat) ≤ s0.accT ∧ (0 : Rat) ≤ s0.accC ∧ ∃ t r, advance 0 [] s0 = .next (t, r) :=
  ⟨le_refl _, le_refl _, test_witness_StrapsNeverChange.2⟩
theorem test_witness_AdvanceRuns : s0.cfg.ok = true ∧ (0 : Rat) ≤ 1 / 60 ∧
    ([SeqEvent.step, .tick, .step, .step, .step, .step, .step, .step, .step].count .tick = ticksDue s0 (1 / 60)) ∧
    ([SeqEvent.step, .tick, .step, .step, .step, .step, .step, .step, .step].count .step = stepsDue s0 (1 / 60)) := by
  rw [test_ticks_due, test_steps_due.1]
  exact ⟨by decide, by norm_num, by decide, by decide⟩

end Sys2Proof.Tests
end

/-! PROOFS. Every step answers a next state, the straps never change, and `set_keys` (spec/00_scope.md R5, R8, R9). -/

namespace Sys2Proof.Machine

/-! ### What every instruction answers -/

/-- An error changes nothing of what lies outside the CPU. -/
theorem State.raise_sameOutside (s : State) (e : ExecError) : SameOutside s (s.raise e) := by
  simp [SameOutside]

/-- A store changes nothing of what lies outside the CPU. -/
theorem State.storeBytes_sameOutside {s t : State} {a : Nat} {xs : List Byte} (h : s.storeBytes a xs = .ok t) :
    SameOutside s t := by
  obtain ⟨-, rfl⟩ := State.storeBytes_ok_iff.mp h
  exact ⟨rfl, rfl, rfl, rfl, rfl⟩

theorem execRet_answers (s : State) : ∃ t, execRet s = .next t ∧ SameOutside s t := by
  unfold execRet
  obtain ⟨-, h⟩ | ⟨-, h⟩ := s.pop_cases <;> rw [h]
  · exact ⟨_, rfl, by simp [SameOutside]⟩
  · exact ⟨_, rfl, s.raise_sameOutside _⟩

theorem execCall_answers (nnn : Addr12) (s : State) : ∃ t, execCall nnn s = .next t ∧ SameOutside s t := by
  unfold execCall
  obtain ⟨_, h⟩ | ⟨-, h⟩ := s.push_cases s.pc <;> rw [h]
  · exact ⟨_, rfl, by simp [SameOutside]⟩
  · exact ⟨_, rfl, s.raise_sameOutside _⟩

theorem execDrw_answers (x y : RegIx) (n : BitVec 4) (s : State) :
    ∃ t, execDrw x y n s = .next t ∧ SameOutside s t := by
  unfold execDrw
  cases s.loadBytes s.i.toNat n.toNat with
  | error e => exact ⟨_, rfl, s.raise_sameOutside e⟩
  | ok rows => exact ⟨_, rfl, by simp [SameOutside]⟩

theorem execLdB_answers (x : RegIx) (s : State) : ∃ t, execLdB x s = .next t ∧ SameOutside s t := by
  unfold execLdB
  cases h : s.storeBytes s.i.toNat (bcdDigits (s.readV x)) with
  | error e => exact ⟨_, rfl, s.raise_sameOutside e⟩
  | ok t => exact ⟨_, rfl, by simpa [SameOutside] using State.storeBytes_sameOutside h⟩

theorem execStoreRegs_answers (x : RegIx) (s : State) : ∃ t, execStoreRegs x s = .next t ∧ SameOutside s t := by
  unfold execStoreRegs
  cases h : s.storeBytes s.i.toNat (s.regRange x) with
  | error e => exact ⟨_, rfl, s.raise_sameOutside e⟩
  | ok t => exact ⟨_, rfl, by simpa [SameOutside] using State.storeBytes_sameOutside h⟩

theorem execLoadRegs_answers (x : RegIx) (s : State) : ∃ t, execLoadRegs x s = .next t ∧ SameOutside s t := by
  unfold execLoadRegs
  cases s.loadBytes s.i.toNat (x.toNat + 1) with
  | error e => exact ⟨_, rfl, s.raise_sameOutside e⟩
  | ok bs => exact ⟨_, rfl, by simp [SameOutside]⟩

theorem execLdVxK_answers (x : RegIx) (s : State) : ∃ t, execLdVxK x s = .next t ∧ SameOutside s t := by
  refine ⟨_, rfl, ?_⟩
  split
  · simp [SameOutside]
  · simp [SameOutside]

/-- Every instruction answers a next state, errors included, and leaves the straps, SEQ's accumulators and the inputs
alone. The instructions that can raise, and the key wait, have a lemma each; the others are one update of the state. -/
theorem exec_answers (i : Instr) (s : State) : ∃ t, exec i s = .next t ∧ SameOutside s t := by
  cases i with
  | ret => exact execRet_answers s
  | call nnn => exact execCall_answers nnn s
  | drw x y n => exact execDrw_answers x y n s
  | ldB x => exact execLdB_answers x s
  | storeRegs x => exact execStoreRegs_answers x s
  | loadRegs x => exact execLoadRegs_answers x s
  | ldVxK x => exact execLdVxK_answers x s
  | sys nnn => exact ⟨_, rfl, s.raise_sameOutside _⟩
  | cls | jp | jpV0 | seKk | sneKk | seVy | sneVy | ldKk | addKk | ldVy | orVy | andVy | xorVy | addVy | subVy | subnVy
  | shr | shl | rnd | ldI | addI | ldF | skp | sknp | ldVxDt | ldDt | ldSt =>
    exact ⟨_, rfl, by simp [SameOutside, State.writeResult]⟩

/-! ### What a step answers -/

/-- A step event answers a next state: one that kept the straps, the accumulators and the inputs, moved to the next
event. -/
theorem cpuStep_answers (s : State) : ∃ u, cpuStep s = .next u.nextEvent ∧ SameOutside s u := by
  obtain ⟨-, h⟩ | ⟨-, e, -, h⟩ | ⟨-, w, r, -, -, h⟩ | ⟨-, w, i, -, -, h⟩ := cpuStep_cases s
  · exact ⟨_, h, by simp [SameOutside]⟩
  · exact ⟨_, h, s.raise_sameOutside e⟩
  · exact ⟨_, h, by simp [SameOutside]⟩
  · obtain ⟨u, hu, hout⟩ := exec_answers i s.advancePc
    exact ⟨u, h.trans (by rw [hu]; rfl), by simpa [SameOutside] using hout⟩

/-- Settles O6: a step is the ticks and then a step event, which always answers. -/
theorem stepAlwaysAnswersANextState : Obligations.StepAlwaysAnswersANextState := by
  intro s
  obtain ⟨u, hu, -⟩ := cpuStep_answers (s.ticks s.stimulus.ticks)
  exact ⟨_, hu⟩

/-- A step of a CPU that is not halted, where the word fetched decodes: the ticks, then the instruction from the
advanced PC, then the next event. -/
theorem step_eq_exec {s : State} {w : Word} {i : Instr} (hrun : s.halted = false) (hw : s.fetch = .ok w)
    (hi : decodeWord w = .ok i) :
    step s = mapNext State.nextEvent (exec i (s.ticks s.stimulus.ticks).advancePc) := by
  simp [step_eq, cpuStep, hrun, fetchAndExecute, hw, decodeAndExecute, hi]

/-! ### The straps -/

theorem step_cfg {s t : State} (h : step s = .next t) : t.cfg = s.cfg := by
  obtain ⟨u, hu, hcfg, -⟩ := cpuStep_answers (s.ticks s.stimulus.ticks)
  cases (step_eq s ▸ h).symm.trans hu
  exact hcfg

/-- When a load is accepted, and what it leaves (R71, R282). -/
theorem loadRom_eq_next {bytes : List Byte} {s t : State} :
    loadRom bytes s = .next t ↔ s.eventNo = 0 ∧ bytes.length ≤ romMax ∧
      t = { s with mem := s.mem.writeAll ((List.range' progBase bytes.length).zip bytes), eventNo := 1 } := by
  unfold loadRom
  split
  · simp [*]
  · split
    · simp; omega
    · simp_all [eq_comm]

theorem loadRom_cfg {bytes : List Byte} {s t : State} (h : loadRom bytes s = .next t) : t.cfg = s.cfg := by
  obtain ⟨-, -, rfl⟩ := loadRom_eq_next.mp h
  rfl

/-- A boot is carried out exactly for a configuration of this hardware, as the load of the reset state (R282). -/
theorem boot_eq_next {cfg : Cfg} {bytes : List Byte} {t : State} :
    boot cfg bytes = .next t ↔ cfg.ok = true ∧ loadRom bytes (State.resetWith cfg) = .next t := by
  unfold boot
  split <;> simp [*]

/-- Every order of events is carried out, and leaves the straps and the accumulators alone. -/
theorem runEvents_answers (order : List SeqEvent) (s : State) :
    ∃ t os, runEvents order s = .next (t, os) ∧ t.cfg = s.cfg ∧ t.accT = s.accT ∧ t.accC = s.accC := by
  induction order generalizing s with
  | nil => exact ⟨s, [], rfl, rfl, rfl, rfl⟩
  | cons ev order ih =>
    cases ev with
    | tick => exact ih s.tick
    | step =>
      obtain ⟨u, hu, hcfg, haccT, haccC, -⟩ := cpuStep_answers s
      obtain ⟨t, os, ht, htcfg, htaccT, htaccC⟩ := ih u.nextEvent
      refine ⟨t, u.nextEvent.outcome.toList ++ os, ?_, htcfg.trans hcfg, htaccT.trans haccT, htaccC.trans haccC⟩
      simp [runEvents, hu, ht]

/-- When an advance is carried out, and what it answers (R260, R261, R263). -/
theorem advance_eq_next {dt : Rat} {order : List SeqEvent} {s t : State} {r : FrameResult} :
    advance dt order s = .next (t, r) ↔
      s.cfg.ok = true ∧ 0 ≤ dt ∧ order.count .tick = ticksDue s dt ∧ order.count .step = stepsDue s dt ∧
      ∃ os, runEvents order { s with accT := carryOver (s.accT + dt) s.cfg.timerHz
                                     accC := carryOver (s.accC + dt) s.cfg.cpuHz } = .next (t, os) ∧
        r = frameResult t os := by
  unfold advance
  split
  · simp_all
  · split
    · next hbad =>
      simp only [reduceCtorEq, false_iff]
      rintro ⟨-, hdt, hticks, hsteps, -⟩
      exact hbad.elim hdt.not_gt (·.elim (· hticks) (· hsteps))
    · next hok hgood =>
      push Not at hgood
      obtain ⟨hdt, hticks, hsteps⟩ := hgood
      simp only [Bool.not_eq_true', Bool.not_eq_false] at hok
      simp only [hok, hdt, hticks, hsteps, true_and]
      split
      · next t' os' hrun =>
        simp only [hrun, Host.Outcome.next.injEq, Prod.mk.injEq]
        constructor
        · rintro ⟨rfl, rfl⟩
          exact ⟨os', ⟨rfl, rfl⟩, rfl⟩
        · rintro ⟨_, ⟨rfl, rfl⟩, rfl⟩
          exact ⟨rfl, rfl⟩
      · next hrun => simp [hrun]
      · next hrun => simp [hrun]

theorem advance_cfg {dt : Rat} {order : List SeqEvent} {s t : State} {r : FrameResult}
    (h : advance dt order s = .next (t, r)) : t.cfg = s.cfg := by
  obtain ⟨-, -, -, -, os, hrun, -⟩ := advance_eq_next.mp h
  obtain ⟨t', os', hrun', hcfg, -⟩ := runEvents_answers order _
  cases hrun.symm.trans hrun'
  exact hcfg

/-- Settles O53: each of the operations keeps the straps, by its own lemma. -/
theorem strapsNeverChange : Obligations.StrapsNeverChange := by
  refine ⟨fun s t => step_cfg, State.tick_cfg, fun m s => s.setKeys_cfg m, fun bytes s t => loadRom_cfg,
    fun dt order s t r => advance_cfg, fun cfg bytes t h => ?_⟩
  exact loadRom_cfg (boot_eq_next.mp h).2

/-! ### `set_keys` -/

/-- PC after a conditional skip, as a number. -/
theorem State.skipIf_pc_toNat (s : State) (c : Bool) :
    (s.skipIf c).pc.toNat = (s.pc.toNat + if c = true then 2 else 0) % 65536 := by
  cases c with
  | true => simp [BitVec.toNat_add]
  | false => exact (Nat.mod_eq_of_lt s.pc.isLt).symm

/-- An EX9E that a running CPU fetches goes 4 past its own address when the key is held, and 2 otherwise (R203,
R206). -/
theorem step_skp {s : State} {w : Word} {x : RegIx} (hrun : s.halted = false) (hw : s.fetch = .ok w)
    (hi : decodeWord w = .ok (.skp x)) :
    ∃ u, step s = .next u ∧
      u.pc.toNat = (s.pc.toNat + if s.keys.getLsbD ((s.readV x).toNat % 16) = true then 4 else 2) % 65536 := by
  refine ⟨_, step_eq_exec hrun hw hi, ?_⟩
  simp only [State.nextEvent_pc, State.done_pc, State.skipIf_pc_toNat, State.advancePc_pc, State.advancePc_readV,
    State.advancePc_keys, State.ticks_pc, State.ticks_readV, State.ticks_keys, lowNibble_eq, keyHeld, BitVec.toNat_add,
    BitVec.toNat_ofNat]
  split <;> omega

/-- Settles O59: `set_keys` updates the stimulus of the coming event only, and the step of an EX9E reads it there. -/
theorem setKeysAnswersTheComingRead : Obligations.SetKeysAnswersTheComingRead := by
  rintro m s _ rfl
  refine ⟨s.setKeys_keys m, s.setKeys_rnd m, rfl, rfl, s.setKeys_nextEvent m, rfl, rfl, s.setKeys_readV m, rfl,
    ⟨rfl, rfl⟩, ⟨rfl, rfl⟩, s.setKeys_readByte m, fun _ _ => rfl, ⟨rfl, rfl, rfl⟩, rfl, rfl, rfl,
    fun w x hrun hw hi => ?_⟩
  exact step_skp (s := s.setKeys m) hrun hw hi

end Sys2Proof.Machine

/-! PROOFS. The architectural state (spec/10_state.md): which instruction writes which part of it, that a return undoes a
call, what reset leaves, and the invariant. -/

namespace Sys2Proof.Machine

/-! ### What an instruction can do -/

/-- The errors an instruction may raise: SYS the illegal word it stands for (R130), any instruction an error that is
possible under the straps. -/
def MayRaise (i : Instr) (c : Cfg) (e : ExecError) : Prop :=
  (∃ nnn, i = .sys nnn ∧ e = .illegalInstruction (0x0#4 ++ nnn)) ∨ e.Possible c

/-- What the execute phase of an instruction can do to the state, said once for the frame statements and the invariant:
it raises an error, or it ends in one of these updates (`exec_effect`). The value an update writes is named where a proof
needs it. -/
inductive Effect : Instr → State → State → Prop
  | raise {i : Instr} {s : State} {e : ExecError} (he : MayRaise i s.cfg e) : Effect i s (s.raise e)
  | jump {i : Instr} {s : State} (target : Word) (hi : ∃ nnn, i = .jp nnn ∨ i = .jpV0 nnn) :
      Effect i s (s.jump target).done
  | skip {i : Instr} {s : State} (c : Bool)
      (hi : ∃ x y kk, i ∈ [Instr.seKk x kk, .sneKk x kk, .seVy x y, .sneVy x y, .skp x, .sknp x]) :
      Effect i s (s.skipIf c).done
  | register {i : Instr} {s : State} (x : RegIx) (b : Byte)
      (hi : ∃ y kk, i ∈ [Instr.ldKk x kk, .addKk x kk, .ldVy x y, .orVy x y, .andVy x y, .xorVy x y, .rnd x kk,
        .ldVxDt x, .ldVxK x]) :
      Effect i s (s.writeV x b).done
  | result {i : Instr} {s : State} (x : RegIx) (r : Byte) (flag : Bool)
      (hi : ∃ y, i ∈ [Instr.addVy x y, .subVy x y, .shr x y, .subnVy x y, .shl x y]) :
      Effect i s (s.writeResult x r flag).done
  | index {i : Instr} {s : State} (n : Nat) (hi : (∃ nnn, i = .ldI nnn) ∨ ∃ x, i = .addI x ∨ i = .ldF x) :
      Effect i s (s.writeI n).done
  | clear {s : State} : Effect .cls s ({ s with fb := Grid.clear }.doneDrawing s.fb)
  | draw {s : State} (x y : RegIx) (n : BitVec 4) (g : Grid) (collision : Bool) :
      Effect (.drw x y n) s (({ s with fb := g }.writeV vf (flagByte collision)).doneDrawing s.fb)
  | call {s : State} (nnn : Addr12) (sp : Fin 17) (stk : Vector Word 16) :
      Effect (.call nnn) s ({ s with sp := sp, stk := stk }.jump (nnn.setWidth 16)).done
  | ret {s : State} (sp : Fin 17) (target : Word) : Effect .ret s ({ s with sp := sp }.jump target).done
  | delayTimer {s : State} (x : RegIx) : Effect (.ldDt x) s { s with dt := s.readV x }.done
  | soundTimer {s : State} (x : RegIx) : Effect (.ldSt x) s { s with st := s.readV x }.done
  | keyWait {s : State} (x : RegIx) : Effect (.ldVxK x) s s.waitForKey
  | storeDigits {s : State} (x : RegIx) {m : Memory}
      (hm : s.storeBytes s.i.toNat (bcdDigits (s.readV x)) = .ok { s with mem := m }) :
      Effect (.ldB x) s { s with mem := m }.done
  | storeRegs {s : State} (x : RegIx) {m : Memory}
      (hm : s.storeBytes s.i.toNat (s.regRange x) = .ok { s with mem := m }) :
      Effect (.storeRegs x) s ({ s with mem := m }.advanceI s.i.toNat x).done
  | loadRegs {s : State} (x : RegIx) {bs : List Byte} (hb : s.loadBytes s.i.toNat (x.toNat + 1) = .ok bs) :
      Effect (.loadRegs x) s ((s.writeRange bs).advanceI s.i.toNat x).done

/-- A failed read is an error of a strict memory. -/
theorem State.loadBytes_error_possible {s : State} {a n : Nat} {e : ExecError} (h : s.loadBytes a n = .error e) :
    e.Possible s.cfg := by
  obtain ⟨hstrict, k, -, hout, -, rfl⟩ := State.loadBytes_error_iff.mp h
  exact ⟨hstrict, hout, .inr (.inl rfl)⟩

/-- A failed store is an error of a strict memory. -/
theorem State.storeBytes_error_possible {s : State} {a : Nat} {xs : List Byte} {e : ExecError}
    (h : s.storeBytes a xs = .error e) : e.Possible s.cfg := by
  obtain ⟨hstrict, k, -, hout, -, rfl⟩ := State.storeBytes_error_iff.mp h
  exact ⟨hstrict, hout, .inr (.inr rfl)⟩

/-- A failed fetch is an error of a strict memory. -/
theorem State.fetch_error_possible {s : State} {e : ExecError} (h : s.fetch = .error e) : e.Possible s.cfg := by
  obtain ⟨hstrict, ⟨hout, rfl⟩ | ⟨-, rfl⟩⟩ := State.fetch_error_iff.mp h
  · exact ⟨hstrict, hout, .inl rfl⟩
  · exact ⟨hstrict, le_rfl, .inl rfl⟩

/-- A store changes memory only. -/
theorem State.storeBytes_memOnly {s t : State} {a : Nat} {xs : List Byte} (h : s.storeBytes a xs = .ok t) :
    ∃ m, t = { s with mem := m } := by
  obtain ⟨-, rfl⟩ := State.storeBytes_ok_iff.mp h
  exact ⟨_, rfl⟩

theorem execRet_effect (s : State) : ∃ t, execRet s = .next t ∧ Effect .ret s t := by
  unfold execRet
  obtain ⟨_, h⟩ | ⟨-, h⟩ := s.pop_cases <;> rw [h]
  · exact ⟨_, rfl, .ret _ _⟩
  · exact ⟨_, rfl, .raise (.inr trivial)⟩

theorem execCall_effect (nnn : Addr12) (s : State) : ∃ t, execCall nnn s = .next t ∧ Effect (.call nnn) s t := by
  unfold execCall
  obtain ⟨_, h⟩ | ⟨-, h⟩ := s.push_cases s.pc <;> rw [h]
  · exact ⟨_, rfl, .call nnn _ _⟩
  · exact ⟨_, rfl, .raise (.inr trivial)⟩

theorem execDrw_effect (x y : RegIx) (n : BitVec 4) (s : State) :
    ∃ t, execDrw x y n s = .next t ∧ Effect (.drw x y n) s t := by
  unfold execDrw
  cases h : s.loadBytes s.i.toNat n.toNat with
  | error e => exact ⟨_, rfl, .raise (.inr (State.loadBytes_error_possible h))⟩
  | ok rows => exact ⟨_, rfl, .draw x y n _ _⟩

theorem execLdB_effect (x : RegIx) (s : State) : ∃ t, execLdB x s = .next t ∧ Effect (.ldB x) s t := by
  unfold execLdB
  cases h : s.storeBytes s.i.toNat (bcdDigits (s.readV x)) with
  | error e => exact ⟨_, rfl, .raise (.inr (State.storeBytes_error_possible h))⟩
  | ok t =>
    obtain ⟨m, rfl⟩ := State.storeBytes_memOnly h
    exact ⟨_, rfl, .storeDigits x h⟩

theorem execStoreRegs_effect (x : RegIx) (s : State) :
    ∃ t, execStoreRegs x s = .next t ∧ Effect (.storeRegs x) s t := by
  unfold execStoreRegs
  cases h : s.storeBytes s.i.toNat (s.regRange x) with
  | error e => exact ⟨_, rfl, .raise (.inr (State.storeBytes_error_possible h))⟩
  | ok t =>
    obtain ⟨m, rfl⟩ := State.storeBytes_memOnly h
    exact ⟨_, rfl, .storeRegs x h⟩

theorem execLoadRegs_effect (x : RegIx) (s : State) :
    ∃ t, execLoadRegs x s = .next t ∧ Effect (.loadRegs x) s t := by
  unfold execLoadRegs
  cases h : s.loadBytes s.i.toNat (x.toNat + 1) with
  | error e => exact ⟨_, rfl, .raise (.inr (State.loadBytes_error_possible h))⟩
  | ok bs => exact ⟨_, rfl, .loadRegs x h⟩

theorem execLdVxK_effect (x : RegIx) (s : State) : ∃ t, execLdVxK x s = .next t ∧ Effect (.ldVxK x) s t := by
  refine ⟨_, rfl, ?_⟩
  split
  · exact .keyWait x
  · exact .register x _ ⟨0, 0, by simp⟩

/-- Every instruction does one of the things an `Effect` lists. -/
theorem exec_effect (i : Instr) (s : State) : ∃ t, exec i s = .next t ∧ Effect i s t := by
  cases i with
  | ret => exact execRet_effect s
  | call nnn => exact execCall_effect nnn s
  | drw x y n => exact execDrw_effect x y n s
  | ldB x => exact execLdB_effect x s
  | storeRegs x => exact execStoreRegs_effect x s
  | loadRegs x => exact execLoadRegs_effect x s
  | ldVxK x => exact execLdVxK_effect x s
  | sys nnn => exact ⟨_, rfl, .raise (.inl ⟨nnn, rfl, rfl⟩)⟩
  | cls => exact ⟨_, rfl, .clear⟩
  | ldDt x => exact ⟨_, rfl, .delayTimer x⟩
  | ldSt x => exact ⟨_, rfl, .soundTimer x⟩
  | jp nnn | jpV0 nnn => exact ⟨_, rfl, .jump _ ⟨nnn, by simp⟩⟩
  | seKk x kk | sneKk x kk => exact ⟨_, rfl, .skip _ ⟨x, 0, kk, by simp⟩⟩
  | seVy x y | sneVy x y => exact ⟨_, rfl, .skip _ ⟨x, y, 0, by simp⟩⟩
  | skp x | sknp x => exact ⟨_, rfl, .skip _ ⟨x, 0, 0, by simp⟩⟩
  | ldKk x kk | addKk x kk | rnd x kk => exact ⟨_, rfl, .register x _ ⟨0, kk, by simp⟩⟩
  | ldVy x y | orVy x y | andVy x y | xorVy x y => exact ⟨_, rfl, .register x _ ⟨y, 0, by simp⟩⟩
  | ldVxDt x => exact ⟨_, rfl, .register x _ ⟨0, 0, by simp⟩⟩
  | addVy x y | subVy x y | subnVy x y | shr x y | shl x y => exact ⟨_, rfl, .result x _ _ ⟨y, by simp⟩⟩
  | ldI nnn => exact ⟨_, rfl, .index _ (.inl ⟨nnn, rfl⟩)⟩
  | addI x => exact ⟨_, rfl, .index _ (.inr ⟨x, .inl rfl⟩)⟩
  | ldF x => exact ⟨_, rfl, .index _ (.inr ⟨x, .inr rfl⟩)⟩

theorem effect_of_exec {i : Instr} {s t : State} (h : exec i s = .next t) : Effect i s t := by
  obtain ⟨u, hu, heffect⟩ := exec_effect i s
  cases h.symm.trans hu
  exact heffect

/-! ### Which instruction writes which part of the state -/

/-- I after an instruction: as before, or written by `WriteI` in one of its writers (R23, R176). -/
theorem Effect.index_cases {i : Instr} {s t : State} (h : Effect i s t) :
    t.i = s.i ∨ ((∃ n, t.i = (s.writeI n).i) ∧ ((∃ nnn, i = .ldI nnn) ∨ (∃ x, i = .addI x ∨ i = .ldF x) ∨
      (s.cfg.ldstInc = true ∧ ∃ x, i = .storeRegs x ∨ i = .loadRegs x))) := by
  cases h with
  | index n hi => exact .inr ⟨⟨n, rfl⟩, hi.imp_right .inl⟩
  | storeRegs x hm | loadRegs x hb =>
    by_cases hinc : s.cfg.ldstInc = true
    · exact .inr ⟨⟨s.i.toNat + x.toNat + 1, by simp [hinc]⟩, .inr (.inr ⟨hinc, x, by simp⟩)⟩
    · exact .inl (by simp [hinc])
  | raise | jump | skip | register | result | clear | draw | call | ret | delayTimer | soundTimer | keyWait
  | storeDigits => exact .inl (by simp [State.writeResult])

/-- Settles O14: `Effect.index_cases` without the value written. -/
theorem indexChangesOnlyByItsWriters : Obligations.IndexChangesOnlyByItsWriters :=
  fun _ _ _ h => (effect_of_exec h).index_cases.imp_right And.right

/-- Settles O15: only a call and a return touch the stack, and a return sets SP alone. -/
theorem stackChangesOnlyByCallAndRet : Obligations.StackChangesOnlyByCallAndRet := by
  intro i s t h
  cases effect_of_exec h with
  | call nnn sp stk => exact .inr (.inl ⟨nnn, rfl⟩)
  | ret sp target => exact .inr (.inr ⟨rfl, rfl⟩)
  | raise | jump | skip | register | result | index | clear | draw | delayTimer | soundTimer | keyWait | storeDigits
  | storeRegs | loadRegs => exact .inl (by simp [SameStack, State.writeResult])

/-- Settles O17: every update but the two drawing ones keeps the framebuffer. -/
theorem screenChangesOnlyByClsAndDrw : Obligations.ScreenChangesOnlyByClsAndDrw := by
  intro i s t h
  cases effect_of_exec h with
  | clear => exact .inr (.inl rfl)
  | draw x y n g collision => exact .inr (.inr ⟨x, y, n, rfl⟩)
  | raise | jump | skip | register | result | index | call | ret | delayTimer | soundTimer | keyWait | storeDigits
  | storeRegs | loadRegs => exact .inl (by simp [SameScreen, State.writeResult])

/-- Settles O19: a skip goes 2 further when its condition holds, a wait for a key goes 2 back, and the other updates
that write PC are those of the transfers. -/
theorem pcChangesOnlyByControlTransfers : Obligations.PcChangesOnlyByControlTransfers := by
  intro i s t h
  cases effect_of_exec h with
  | skip c hi =>
    cases c with
    | false => exact .inl rfl
    | true => exact .inr (.inr (.inl ⟨hi, rfl⟩))
  | keyWait x => exact .inr (.inr (.inr ⟨⟨x, rfl⟩, rfl⟩))
  | jump target hi =>
    obtain ⟨nnn, rfl | rfl⟩ := hi
    · exact .inr (.inl (.inr ⟨nnn, by simp⟩))
    · exact .inr (.inl (.inr ⟨nnn, by simp⟩))
  | call nnn sp stk => exact .inr (.inl (.inr ⟨nnn, by simp⟩))
  | ret sp target => exact .inr (.inl (.inl rfl))
  | raise | register | result | index | clear | draw | delayTimer | soundTimer | storeDigits | storeRegs
  | loadRegs => exact .inl (by simp [State.writeResult])

/-! ### VF -/

theorem flagByte_cases (b : Bool) : flagByte b = 0x00#8 ∨ flagByte b = 0x01#8 := by
  cases b with
  | false => exact .inl rfl
  | true => exact .inr rfl

/-- A register after consecutive registers are written from `k` up. -/
theorem getElem_foldl_setIfInBounds (xs : List Byte) (k : Nat) (v : Vector Byte 16) (r : Nat) (hr : r < 16) :
    ((xs.zipIdx k).foldl (fun v (b, j) => v.setIfInBounds j b) v)[r] =
      if r < k then v[r] else xs.getD (r - k) v[r] := by
  induction xs generalizing k v with
  | nil => simp
  | cons b xs ih =>
    rw [List.zipIdx_cons, List.foldl_cons, ih, Vector.getElem_setIfInBounds]
    obtain hlt | rfl | hgt := Nat.lt_trichotomy r k
    · simp [hlt, hlt.ne', Nat.lt_succ_of_lt hlt]
    · simp
    · obtain ⟨d, rfl⟩ := Nat.exists_eq_add_of_lt hgt
      have hd : k + d + 1 - k = d + 1 := by omega
      have hd' : k + d + 1 - (k + 1) = d := by omega
      rw [if_neg (by omega), if_neg (by omega), if_neg (by omega), hd, hd', List.getD_cons_succ]

/-- A register after a block write: the byte at its place in the block, or as before past the block (R175). -/
theorem State.readV_writeRange (s : State) (xs : List Byte) (r : RegIx) :
    (s.writeRange xs).readV r = xs.getD r.toNat (s.readV r) := by
  exact getElem_foldl_setIfInBounds xs 0 s.v r.toNat r.isLt

/-- VF is past the registers that FX65 loads, unless it names VF (R175). -/
theorem State.readV_vf_writeRange {s : State} {a : Nat} {x : RegIx} {bs : List Byte}
    (hb : s.loadBytes a (x.toNat + 1) = .ok bs) (hx : x ≠ vf) : (s.writeRange bs).readV vf = s.readV vf := by
  obtain ⟨-, rfl⟩ := State.loadBytes_ok_iff.mp hb
  have hlt : x.toNat < 15 := by
    have hne : x.toNat ≠ 15 := fun e => hx (BitVec.eq_of_toNat_eq e)
    have := x.isLt
    omega
  rw [State.readV_writeRange, List.getD_eq_default]
  simpa [vf] using hlt

/-- Settles O13: a flag is written last and is 0 or 1; the other writes of a register leave VF alone unless they name
it. -/
theorem vfChangesOnlyByFlagsOrAsDestination : Obligations.VfChangesOnlyByFlagsOrAsDestination := by
  intro i s t h
  cases effect_of_exec h with
  | register x b hi =>
    obtain ⟨y, kk, hi⟩ := hi
    by_cases hx : x = vf
    · subst hx
      exact .inr (.inr ⟨y, kk, List.mem_append_left [Instr.loadRegs vf] hi⟩)
    · exact .inl (by simp [Ne.symm hx])
  | loadRegs x hb =>
    by_cases hx : x = vf
    · subst hx
      exact .inr (.inr ⟨0, 0, by simp⟩)
    · exact .inl (by simpa using State.readV_vf_writeRange hb hx)
  | result x r flag hi =>
    obtain ⟨y, hi⟩ := hi
    exact .inr (.inl ⟨⟨x, y, 0, List.mem_append_left [Instr.drw x y 0] hi⟩,
      by simpa [State.writeResult] using flagByte_cases flag⟩)
  | draw x y n g collision =>
    exact .inr (.inl ⟨⟨x, y, n, by simp⟩, by simpa using flagByte_cases collision⟩)
  | raise | jump | skip | index | clear | call | ret | delayTimer | soundTimer | keyWait | storeDigits | storeRegs =>
    exact .inl (by simp [State.readV])

/-! ### The stack -/

/-- A pop from the stack a push left answers what was pushed, and the depth before the push (R26). -/
theorem State.pop_of_pushed {s u : State} {w : Word} (hlt : s.sp.val < 16) (hsp : u.sp.val = s.sp.val + 1)
    (hstk : u.stk = s.stk.set s.sp.val w hlt) : u.pop = .ok (w, { u with sp := s.sp }) := by
  simp [State.pop, hsp, hstk]

/-- Settles O24: the call pushes the advanced PC, and the pop of the return takes it back. -/
theorem returnUndoesCall : Obligations.ReturnUndoesCall := by
  intro nnn s t u hlt hcall hstack
  obtain ⟨_, hpush⟩ | ⟨hfull, -⟩ := s.push_cases s.pc
  · simp only [exec, execCall, hpush] at hcall
    cases hcall
    obtain ⟨hsp, hstk⟩ := hstack
    have hpop : u.pop = .ok (s.pc, { u with sp := s.sp }) :=
      State.pop_of_pushed hlt (congrArg Fin.val hsp) hstk
    refine ⟨({ u with sp := s.sp }.jump s.pc).done, ?_, rfl, rfl⟩
    simp only [exec, execRet, hpop]
  · omega

/-! ### Reset -/

/-- What reset leaves outside the font is 0 (R38, R72). -/
theorem unlisted_outside_font {a : Nat} (h : a < 0x050 ∨ 0x0A0 ≤ a) : unlisted a = 0x00#8 := by
  unfold unlisted fontBase
  split
  · have hlen : fontBytes.length = 0x050 := rfl
    exact List.getD_eq_default _ _ (by omega)
  · rfl

/-- Settles O51: the registers, the stack and the pixels are constant vectors, memory is the unlisted one, and the
font's bytes are evaluated. -/
theorem resetLeavesThisState : Obligations.ResetLeavesThisState := by
  rintro cfg _ rfl
  refine ⟨rfl, fun r => ?_, rfl, rfl, fun k hk => ?_, rfl, rfl, rfl, fun q c => ?_, fun a => unlisted_outside_font, rfl,
    rfl, rfl, rfl, rfl, rfl, rfl⟩
  · simp [State.readV, State.resetWith]
  · simp [State.resetWith]
  · simp [Grid.pixel, State.resetWith]

/-! ### The invariant -/

/-- Settles O55: nothing is listed, logged or recorded after reset. -/
theorem resetHasTheInvariant : Obligations.ResetHasTheInvariant := fun cfg =>
  { memCanonical := State.resetWith_mem_wf cfg
    indexMasked := fun _ => Nat.zero_lt_succ _
    haltedIffErr := rfl
    errHalts := fun _ h => by cases h
    logSuppressed := fun _ h => by cases h }

/-- `WriteI` keeps I below 0x1000 under `CFG.i_mask12` (R176). -/
theorem State.writeI_masked {s : State} (n : Nat) (hmask : s.cfg.iMask12 = true) : (s.writeI n).i.toNat < 4096 := by
  simp [hmask]
  omega

/-- The invariant after an update that keeps the straps and the error status: memory and I are to be looked at. -/
theorem State.Inv.of_sameStatus {s t : State} (hs : s.Inv) (hcfg : t.cfg = s.cfg) (hstatus : SameStatus s t)
    (hmem : t.mem.wf = true) (hindex : t.i = s.i ∨ ∃ n, t.i = (s.writeI n).i) : t.Inv := by
  obtain ⟨hhalted, herr, hlog⟩ := hstatus
  refine ⟨hmem, fun hmask => ?_, ?_, ?_, ?_⟩
  · rw [hcfg] at hmask
    obtain hi | ⟨n, hi⟩ := hindex <;> rw [hi]
    · exact hs.indexMasked hmask
    · exact State.writeI_masked n hmask
  · rw [hhalted, herr]; exact hs.haltedIffErr
  · rw [hcfg, herr]; exact hs.errHalts
  · rw [hcfg, hlog]; exact hs.logSuppressed

/-- The invariant after an update that keeps the straps, the error status, memory and I. -/
theorem State.Inv.of_same {s t : State} (hs : s.Inv) (hcfg : t.cfg = s.cfg) (hstatus : SameStatus s t)
    (hmem : t.mem = s.mem) (hindex : t.i = s.i) : t.Inv :=
  hs.of_sameStatus hcfg hstatus (hmem ▸ hs.memCanonical) (.inl hindex)

theorem State.Inv.advancePc {s : State} (hs : s.Inv) : s.advancePc.Inv := hs.of_same rfl ⟨rfl, rfl, rfl⟩ rfl rfl

theorem State.Inv.stayHalted {s : State} (hs : s.Inv) : s.stayHalted.Inv := hs.of_same rfl ⟨rfl, rfl, rfl⟩ rfl rfl

theorem State.Inv.nextEvent {s : State} (hs : s.Inv) : s.nextEvent.Inv := hs.of_same rfl ⟨rfl, rfl, rfl⟩ rfl rfl

theorem State.Inv.ticks {s : State} (hs : s.Inv) (n : Nat) : (s.ticks n).Inv := hs.of_same rfl ⟨rfl, rfl, rfl⟩ rfl rfl

/-- A possible error keeps the invariant: recorded when it halts, logged when it is suppressed (R248, R249, R251). -/
theorem State.Inv.raise {s : State} {e : ExecError} (hs : s.Inv) (he : e.Possible s.cfg) : (s.raise e).Inv := by
  refine ⟨by simpa using hs.memCanonical, by simpa using hs.indexMasked, ?_, ?_, ?_⟩
  all_goals
    simp only [State.raise_halted, State.raise_err, State.raise_errLog, State.raise_cfg]
    cases hhalts : e.halts s.cfg.errPolicy
  · simpa using hs.haltedIffErr
  · simp
  · simpa using hs.errHalts
  · simp [hhalts, he]
  · simpa [or_imp, forall_and, hhalts, he] using hs.logSuppressed
  · simpa using hs.logSuppressed

theorem Effect.mem_wf {i : Instr} {s t : State} (h : Effect i s t) (hm : s.mem.wf = true) : t.mem.wf = true := by
  cases h with
  | storeDigits x hstore => simpa using State.storeBytes_wf hstore hm
  | storeRegs x hstore => simpa using State.storeBytes_wf hstore hm
  | raise | jump | skip | register | result | index | clear | draw | call | ret | delayTimer | soundTimer | keyWait
  | loadRegs => simpa [State.writeResult] using hm

/-- An instruction raises an error of its own, or leaves HALTED, ERR and the log alone (R35). -/
theorem Effect.raises_or_sameStatus {i : Instr} {s t : State} (h : Effect i s t) :
    (∃ e, t = s.raise e ∧ MayRaise i s.cfg e) ∨ SameStatus s t := by
  cases h with
  | raise he => exact .inl ⟨_, rfl, he⟩
  | jump | skip | register | result | index | clear | draw | call | ret | delayTimer | soundTimer | keyWait
  | storeDigits | storeRegs | loadRegs => exact .inr (by simp [SameStatus, State.writeResult])

theorem decodeFamily8_ne_sys (w : Word) (nnn : Addr12) : decodeFamily8 w ≠ .ok (.sys nnn) := by
  unfold decodeFamily8
  split_ifs <;> simp

theorem decodeFamilyE_ne_sys (w : Word) (nnn : Addr12) : decodeFamilyE w ≠ .ok (.sys nnn) := by
  unfold decodeFamilyE
  split_ifs <;> simp

theorem decodeFamilyF_ne_sys (w : Word) (nnn : Addr12) : decodeFamilyF w ≠ .ok (.sys nnn) := by
  unfold decodeFamilyF
  split_ifs <;> simp

/-- Only family 0 decodes to SYS, and its word is the one SYS raises (R94, R130). -/
theorem decodeWord_eq_sys {w : Word} {nnn : Addr12} (h : decodeWord w = .ok (.sys nnn)) : w = 0x0#4 ++ nnn := by
  by_cases hop : fieldOp w = 0x0#4
  · have hnnn : fieldNNN w = nnn := by
      simp only [decodeWord, hop, if_true, decodeFamily0] at h
      split_ifs at h
      · cases h
      · cases h
      · cases h; rfl
    rw [word_eq_nnn w, hop, hnnn]
  · absurd h
    simp [decodeWord, hop, ite_eq_iff, decodeLowNibble0, decodeFamily8_ne_sys, decodeFamilyE_ne_sys,
      decodeFamilyF_ne_sys]

/-- An instruction that was decoded keeps the invariant: the word SYS raises is the decoded one, so it is illegal. -/
theorem Effect.inv {i : Instr} {s t : State} {w : Word} (h : Effect i s t) (hw : decodeWord w = .ok i)
    (hcfg : t.cfg = s.cfg) (hs : s.Inv) : t.Inv := by
  obtain ⟨e, rfl, ⟨nnn, rfl, rfl⟩ | he⟩ | hstatus := h.raises_or_sameStatus
  · exact hs.raise (.inr ⟨nnn, decodeWord_eq_sys hw ▸ hw⟩)
  · exact hs.raise he
  · exact hs.of_sameStatus hcfg hstatus (h.mem_wf hs.memCanonical) (h.index_cases.imp_right And.left)

/-- A step event keeps the invariant, in each of the four ways it can go. -/
theorem State.Inv.cpuStep {s t : State} (hs : s.Inv) (h : cpuStep s = .next t) : t.Inv := by
  obtain ⟨-, h'⟩ | ⟨-, e, he, h'⟩ | ⟨-, w, r, -, hw, h'⟩ | ⟨-, w, i, -, hw, h'⟩ := cpuStep_cases s <;>
    rw [h'] at h
  · cases h
    exact hs.stayHalted.nextEvent
  · cases h
    exact (hs.raise (State.fetch_error_possible he)).nextEvent
  · cases h
    exact (hs.advancePc.raise (e := .illegalInstruction w) (.inl ⟨r, hw⟩)).nextEvent
  · obtain ⟨u, hu, rfl⟩ := mapNext_eq_next.mp h
    obtain ⟨u', hu', hcfg, -⟩ := exec_answers i s.advancePc
    cases hu.symm.trans hu'
    exact ((effect_of_exec hu).inv hw hcfg hs.advancePc).nextEvent

/-- Settles O54: ticks touch the timers only, and the step event keeps the invariant. -/
theorem stepKeepsTheInvariant : Obligations.StepKeepsTheInvariant :=
  fun s _ hs h => (hs.ticks s.stimulus.ticks).cpuStep (step_eq s ▸ h)

end Sys2Proof.Machine

/-! PROOFS. Memory (spec/20_memory.md): which instructions write it, that a fetch reads what a store has written, and
the load of a ROM. -/

namespace Sys2Proof.Machine

/-! ### Which instructions write memory -/

/-- `V[0]` to `V[x]` are `x + 1` bytes (R174). -/
@[simp] theorem State.length_regRange (s : State) (x : RegIx) : (s.regRange x).length = x.toNat + 1 := by
  have hx : x.toNat + 1 ≤ 16 := x.isLt
  simp [State.regRange, hx]

/-- The bytes of a state are read off its memory alone. -/
theorem SameMemory.of_mem {s t : State} (h : t.mem = s.mem) : SameMemory s t :=
  fun a => congrArg (Memory.read · a) h

/-- Settles O18: FX33 and FX55 are the two updates that store, and a store keeps every byte outside its addresses. -/
theorem memoryChangesOnlyByItsStores : Obligations.MemoryChangesOnlyByItsStores := by
  intro i s t h
  cases effect_of_exec h with
  | storeDigits x hstore =>
    exact .inr (.inl ⟨x, rfl, fun a ha => by simpa using State.storeBytes_read_other hstore a ha⟩)
  | storeRegs x hstore =>
    refine .inr (.inr ⟨x, rfl, fun a ha => ?_⟩)
    simpa using State.storeBytes_read_other hstore a (by simpa using ha)
  | raise | jump | skip | register | result | index | clear | draw | call | ret | delayTimer | soundTimer | keyWait
  | loadRegs => exact .inl (.of_mem (by simp [State.writeResult]))

/-! ### A fetch of stored registers -/

/-- `V[r]` stands at place `r` of the registers that FX55 stores (R174). -/
theorem State.getElem_regRange (s : State) (x r : RegIx) (hr : r.toNat < (s.regRange x).length) :
    (s.regRange x)[r.toNat] = s.readV r := by
  simp [State.regRange, State.readV]

/-- A store of bytes that are all in reach is carried out (R66). -/
theorem State.storeBytes_of_inReach {s : State} {xs : List Byte} (h : InReach s xs.length) :
    ∃ u, s.storeBytes s.i.toNat xs = .ok u :=
  ⟨_, State.storeBytes_ok_iff.mpr ⟨h, rfl⟩⟩

/-- An FX55 in reach leaves each register it stores at its own address (R174). -/
theorem exec_storeRegs_readByte {x : RegIx} {s t : State} (hreach : InReach s (x.toNat + 1))
    (h : exec (.storeRegs x) s = .next t) (r : RegIx) (hr : r.toNat ≤ x.toNat) :
    t.readByte ((s.i.toNat + r.toNat) % 4096) = s.readV r := by
  obtain ⟨u, hu⟩ := State.storeBytes_of_inReach (s.length_regRange x ▸ hreach)
  have hlen : (s.regRange x).length ≤ 4096 := by have := x.isLt; simp; omega
  have hr' : r.toNat < (s.regRange x).length := by simp; omega
  simp only [exec, execStoreRegs, hu, Host.Outcome.next.injEq] at h
  subst h
  calc (u.advanceI s.i.toNat x).done.readByte ((s.i.toNat + r.toNat) % 4096)
      = u.readByte ((s.i.toNat + r.toNat) % 4096) := by simp
    _ = (s.regRange x)[r.toNat] := State.storeBytes_read hu hlen r.toNat hr'
    _ = s.readV r := s.getElem_regRange x r hr'

/-- Settles O42: the two bytes a fetch at I + r reads are the ones FX55 has stored there. -/
theorem storeIsSeenByTheNextFetch : Obligations.StoreIsSeenByTheNextFetch := by
  intro x r q s t hq hx hreach hlt h
  obtain ⟨u, hu, hcfg, -⟩ := exec_answers (.storeRegs x) s
  cases h.symm.trans hu
  have hpc : (BitVec.ofNat 16 (s.i.toNat + r.toNat)).toNat = s.i.toNat + r.toNat := by simp; omega
  have hfirst := exec_storeRegs_readByte hreach h r (by omega)
  have hsecond := exec_storeRegs_readByte hreach h q hx
  rw [hq, ← Nat.add_assoc] at hsecond
  rw [State.fetch_ok_iff, State.jump_cfg, State.jump_pc, State.jump_readByte, State.jump_readByte, hpc, hcfg, hfirst,
    hsecond]
  exact ⟨by simpa [hq, Nat.add_assoc] using hreach q.toNat (by omega), rfl⟩

/-! ### Loading a ROM -/

/-- Bytes written at consecutive addresses from `base` up: each reads back at its own address, and every other address
as before (R71). -/
theorem Memory.read_writeAll_range' (m : Memory) (base : Nat) (bytes : List Byte) (a : Nat) :
    (m.writeAll ((List.range' base bytes.length).zip bytes)).read a =
      if base ≤ a ∧ a < base + bytes.length then bytes.getD (a - base) 0x00#8 else m.read a := by
  split
  case isTrue hin =>
    obtain ⟨k, rfl⟩ := Nat.exists_eq_add_of_le hin.1
    have hk : k < bytes.length := by omega
    refine Memory.read_writeAll_mem _ _ ?_ _ _ (List.mem_iff_getElem.mpr ⟨k, by simpa using hk, by simp [hk]⟩)
    rw [List.map_fst_zip (by simp)]
    exact List.nodup_range'
  case isFalse hout =>
    refine Memory.read_writeAll_other _ _ _ ?_
    rintro ⟨b, x⟩ hc rfl
    exact hout (List.mem_range'_1.mp (List.of_mem_zip hc).1)

/-- A load before the first step of more bytes than the program area holds fails with their number (R245). -/
theorem loadRom_too_large {bytes : List Byte} {s : State} (h0 : s.eventNo = 0) (hlen : romMax < bytes.length) :
    loadRom bytes s = .fault (.romTooLarge bytes.length) := by
  simp [loadRom, h0, hlen]

/-- Settles O52: a load that fits is one block write of memory, and a longer one is refused before it. -/
theorem romLoadWritesFrom0x200 : Obligations.RomLoadWritesFrom0x200 := by
  intro bytes s h0
  refine ⟨loadRom_too_large h0, fun hlen => ⟨_, loadRom_eq_next.mpr ⟨h0, hlen, rfl⟩, ?_⟩⟩
  exact ⟨Memory.read_writeAll_range' s.mem progBase bytes, rfl, fun _ => rfl, rfl, ⟨rfl, rfl⟩, ⟨rfl, rfl⟩,
    fun _ _ => rfl, ⟨rfl, rfl, rfl⟩, rfl, rfl, rfl⟩

end Sys2Proof.Machine

/-! PROOFS. Decoding and encoding undo each other, and which words are refused (spec/30_encoding.md R90 to R97). -/

namespace Sys2Proof

/-! ### Decoding an encoding -/

/-- Family 0 by its address: CLS and RET take precedence over SYS (R94). -/
theorem decodeFamily0_nnn (nnn : Addr12) :
    decodeFamily0 (0x0#4 ++ nnn) =
      if nnn = 0x0E0#12 then .ok .cls else if nnn = 0x0EE#12 then .ok .ret else .ok (.sys nnn) := by
  have hinj (a : Addr12) : (0x0#4 ++ nnn : Word) = 0x0#4 ++ a ↔ nnn = a :=
    ⟨fun h => by simpa using congrArg fieldNNN h, fun h => h ▸ rfl⟩
  have hcls : 0x0#4 ++ nnn = 0x00E0#16 ↔ nnn = 0x0E0#12 := hinj 0x0E0#12
  have hret : 0x0#4 ++ nnn = 0x00EE#16 ↔ nnn = 0x0EE#12 := hinj 0x0EE#12
  simp only [decodeFamily0, hcls, hret, fieldNNN_nnn]

/-- The word of a well-formed instruction selects its family, then its sub-opcode, and holds its fields (R92, R94). -/
theorem decodeWord_encode {i : Instr} (h : i.wellFormed = true) : decodeWord (encode i) = .ok i := by
  cases i with
  | cls | ret => rfl
  | sys nnn =>
    obtain ⟨hcls, hret⟩ : nnn ≠ 0x0E0#12 ∧ nnn ≠ 0x0EE#12 := by simpa [Instr.wellFormed] using h
    simp [encode, decodeWord, decodeFamily0_nnn, hcls, hret]
  | jp | call | seKk | sneKk | ldKk | addKk | ldI | jpV0 | rnd | drw => simp [encode, decodeWord]
  | seVy | sneVy => simp [encode, decodeWord, decodeLowNibble0]
  | ldVy | orVy | andVy | xorVy | addVy | subVy | shr | subnVy | shl => simp [encode, decodeWord, decodeFamily8]
  | skp | sknp => simp [encode, decodeWord, decodeFamilyE]
  | ldVxDt | ldVxK | ldDt | ldSt | addI | ldF | ldB | storeRegs | loadRegs =>
    simp [encode, decodeWord, decodeFamilyF]

/-- The two bytes of a word at the head of a stream decode as the word, and the rest is handed back (R68, R90). -/
theorem decodeBytes_of_decodeWord {w : Word} {i : Instr} (h : decodeWord w = .ok i) (rest : List Byte) :
    decodeBytes (bytesOfWord w ++ rest) = .ok (i, rest) := by
  simp [bytesOfWord, decodeBytes, bytes_make_word, h]

/-- Settles O1: the word decodes to its instruction, and so do its two bytes. -/
theorem decodeOfEncodeIsTheInstruction : Obligations.DecodeOfEncodeIsTheInstruction :=
  fun _ rest h => ⟨decodeWord_encode h, decodeBytes_of_decodeWord (decodeWord_encode h) rest⟩

/-! ### Encoding what was decoded -/

/-- What a decoder answers for `w`, when it answers an instruction, is well formed and has the encoding `w` (R97). -/
def KeepsWord (w : Word) (answer : Except DecodeReject Instr) : Prop :=
  ∀ i, answer = .ok i → i.wellFormed = true ∧ encode i = w

theorem KeepsWord.ok {w : Word} {i : Instr} (hwf : i.wellFormed = true) (hw : encode i = w) : KeepsWord w (.ok i) := by
  rintro _ ⟨⟩
  exact ⟨hwf, hw⟩

theorem KeepsWord.error {w : Word} {r : DecodeReject} : KeepsWord w (.error r) := nofun

/-- A word is rebuilt from its family and its address (R92). -/
theorem nnn_eq_word {w : Word} {op : BitVec 4} (hop : fieldOp w = op) : op ++ fieldNNN w = w :=
  hop ▸ (word_eq_nnn w).symm

/-- A word is rebuilt from its family, its register and its low byte (R92). -/
theorem xkk_eq_word {w : Word} {op : BitVec 4} {kk : Byte} (hop : fieldOp w = op) (hkk : fieldKK w = kk) :
    op ++ fieldX w ++ kk = w := by
  subst hop hkk
  exact (word_eq_xkk w).symm

/-- A word is rebuilt from its family, its two registers and its low digit (R92). -/
theorem xyn_eq_word {w : Word} {op n : BitVec 4} (hop : fieldOp w = op) (hn : fieldN w = n) :
    op ++ fieldX w ++ fieldY w ++ n = w := by
  subst hop hn
  exact (word_eq_xyn w).symm

theorem decodeFamily0_keepsWord {w : Word} (hop : fieldOp w = 0x0#4) : KeepsWord w (decodeFamily0 w) := by
  rw [← nnn_eq_word hop, decodeFamily0_nnn]
  split_ifs with hcls hret
  · rw [hcls]
    exact .ok rfl rfl
  · rw [hret]
    exact .ok rfl rfl
  · exact .ok (by simp [Instr.wellFormed, hcls, hret]) rfl

theorem decodeLowNibble0_keepsWord {w : Word} {i : Instr} (hwf : i.wellFormed = true)
    (hw : fieldN w = 0x0#4 → encode i = w) : KeepsWord w (decodeLowNibble0 i w) := by
  unfold decodeLowNibble0
  split_ifs with hn
  · exact .ok hwf (hw hn)
  · exact .error

theorem decodeFamily8_keepsWord {w : Word} (hop : fieldOp w = 0x8#4) : KeepsWord w (decodeFamily8 w) := by
  unfold decodeFamily8
  split_ifs
  case neg => exact .error
  all_goals exact .ok rfl (xyn_eq_word hop ‹_›)

theorem decodeFamilyE_keepsWord {w : Word} (hop : fieldOp w = 0xE#4) : KeepsWord w (decodeFamilyE w) := by
  unfold decodeFamilyE
  split_ifs
  case neg => exact .error
  all_goals exact .ok rfl (xkk_eq_word hop ‹_›)

theorem decodeFamilyF_keepsWord {w : Word} (hop : fieldOp w = 0xF#4) : KeepsWord w (decodeFamilyF w) := by
  unfold decodeFamilyF
  split_ifs
  case neg => exact .error
  all_goals exact .ok rfl (xkk_eq_word hop ‹_›)

/-- The sixteen families of words. -/
theorem fieldOp_cases (w : Word) : fieldOp w = 0x0#4 ∨ fieldOp w = 0x1#4 ∨ fieldOp w = 0x2#4 ∨ fieldOp w = 0x3#4 ∨
    fieldOp w = 0x4#4 ∨ fieldOp w = 0x5#4 ∨ fieldOp w = 0x6#4 ∨ fieldOp w = 0x7#4 ∨ fieldOp w = 0x8#4 ∨
    fieldOp w = 0x9#4 ∨ fieldOp w = 0xA#4 ∨ fieldOp w = 0xB#4 ∨ fieldOp w = 0xC#4 ∨ fieldOp w = 0xD#4 ∨
    fieldOp w = 0xE#4 ∨ fieldOp w = 0xF#4 := by
  generalize fieldOp w = op
  revert op
  decide

/-- Every bit of a word that decodes is in its family, its sub-opcode or a field of the instruction (R97). -/
theorem decodeWord_keepsWord (w : Word) : KeepsWord w (decodeWord w) := by
  obtain h | h | h | h | h | h | h | h | h | h | h | h | h | h | h | h := fieldOp_cases w
  all_goals simp only [decodeWord, h, BitVec.reduceEq, reduceIte]
  · exact decodeFamily0_keepsWord h
  · exact .ok rfl (nnn_eq_word h)
  · exact .ok rfl (nnn_eq_word h)
  · exact .ok rfl (xkk_eq_word h rfl)
  · exact .ok rfl (xkk_eq_word h rfl)
  · exact decodeLowNibble0_keepsWord rfl (xyn_eq_word h)
  · exact .ok rfl (xkk_eq_word h rfl)
  · exact .ok rfl (xkk_eq_word h rfl)
  · exact decodeFamily8_keepsWord h
  · exact decodeLowNibble0_keepsWord rfl (xyn_eq_word h)
  · exact .ok rfl (nnn_eq_word h)
  · exact .ok rfl (nnn_eq_word h)
  · exact .ok rfl (xkk_eq_word h rfl)
  · exact .ok rfl (xyn_eq_word h rfl)
  · exact decodeFamilyE_keepsWord h
  · exact decodeFamilyF_keepsWord h

/-- Settles O2: each family keeps the word. -/
theorem encodeOfDecodeIsTheWord : Obligations.EncodeOfDecodeIsTheWord := decodeWord_keepsWord

/-! ### The words that are refused -/

/-- The family of a word is its highest hexadecimal digit (R91). -/
theorem fieldOp_eq_iff {w : Word} {d : BitVec 4} : fieldOp w = d ↔ w.toNat / 4096 = d.toNat := by
  have hw : w.toNat / 4096 < 16 := by omega
  simp [← BitVec.toNat_inj, fieldOp, Nat.shiftRight_eq_div_pow, Nat.mod_eq_of_lt hw]

/-- `n` is the lowest hexadecimal digit of the word (R91). -/
theorem fieldN_eq_iff {w : Word} {d : BitVec 4} : fieldN w = d ↔ w.toNat % 16 = d.toNat := by
  simp [← BitVec.toNat_inj, fieldN]

/-- `kk` is the low byte of the word (R91). -/
theorem fieldKK_eq_iff {w : Word} {b : Byte} : fieldKK w = b ↔ w.toNat % 256 = b.toNat := by
  simp [← BitVec.toNat_inj, fieldKK]

/-- The decoder answers no instruction (R95). -/
def Refused (answer : Except DecodeReject Instr) : Prop := ∃ r, answer = .error r

@[simp] theorem not_refused_ok (i : Instr) : ¬ Refused (.ok i) := nofun

@[simp] theorem refused_error (r : DecodeReject) : Refused (.error r) := ⟨r, rfl⟩

/-- A row of the opcode map that takes the words with `c` refuses none of them; the rows after it see the others. -/
@[simp] theorem refused_ite_ok {c : Prop} [Decidable c] {i : Instr} {rest : Except DecodeReject Instr} :
    Refused (if c then .ok i else rest) ↔ ¬ c ∧ Refused rest := by
  by_cases hc : c <;> simp [hc]

theorem not_refused_decodeFamily0 {w : Word} : ¬ Refused (decodeFamily0 w) := by simp [decodeFamily0]

theorem refused_decodeLowNibble0 {i : Instr} {w : Word} : Refused (decodeLowNibble0 i w) ↔ w.toNat % 16 ≠ 0 := by
  simp [decodeLowNibble0, fieldN_eq_iff]

theorem refused_decodeFamily8 {w : Word} :
    Refused (decodeFamily8 w) ↔ 8 ≤ w.toNat % 16 ∧ w.toNat % 16 ≠ 0xE := by
  simp [decodeFamily8, fieldN_eq_iff]
  omega

theorem refused_decodeFamilyE {w : Word} :
    Refused (decodeFamilyE w) ↔ w.toNat % 256 ≠ 0x9E ∧ w.toNat % 256 ≠ 0xA1 := by
  simp [decodeFamilyE, fieldKK_eq_iff]

theorem refused_decodeFamilyF {w : Word} :
    Refused (decodeFamilyF w) ↔ w.toNat % 256 ∉ [0x07, 0x0A, 0x15, 0x18, 0x1E, 0x29, 0x33, 0x55, 0x65] := by
  simp [decodeFamilyF, fieldKK_eq_iff]

/-- Settles O3: in each of the sixteen families the decoder refuses what that family refuses, if anything. -/
theorem unrecognisedWordsAreThese : Obligations.UnrecognisedWordsAreThese := by
  intro w
  change Refused (decodeWord w) ↔ _
  obtain h | h | h | h | h | h | h | h | h | h | h | h | h | h | h | h := fieldOp_cases w <;>
    simp [decodeWord, h, fieldOp_eq_iff.mp h, not_refused_decodeFamily0, refused_decodeLowNibble0,
      refused_decodeFamily8, refused_decodeFamilyE, refused_decodeFamilyF]

/-- Settles O4: the decoder, run on eight words. -/
theorem sampleWordsDecode : Obligations.SampleWordsDecode := by
  unfold Obligations.SampleWordsDecode
  decide

end Sys2Proof

/-! PROOFS. The step cycle (spec/40_step_cycle.md): a step runs the decoded instruction, a halted CPU changes nothing,
and an error is precise, whether the fetch, the decoder or an instruction raises it. -/

namespace Sys2Proof.Machine

/-! ### A step that runs an instruction, and a halted CPU -/

/-- Settles O5: the two bytes are the fetched word, which the ticks do not change. -/
theorem stepRunsTheDecodedInstruction : Obligations.StepRunsTheDecodedInstruction :=
  fun _ _ hrun hreach hi => step_eq_exec hrun (State.fetch_ok_iff.mpr ⟨hreach, rfl⟩) hi

theorem cpuStep_of_halted {s : State} (h : s.halted = true) : cpuStep s = .next s.stayHalted.nextEvent := by
  simp [cpuStep, h, mapNext]

/-- A counter after `n` ticks, as a number: `n` lower, and not below 0 (R256). -/
@[simp] theorem toNat_countDown (n : Nat) (b : Byte) : (countDown n b).toNat = b.toNat - n := by
  unfold countDown
  split
  case isTrue h => simp [h]
  case isFalse => exact Nat.mod_eq_of_lt (by have := b.isLt; omega)

/-- Settles O7: staying halted changes the outcome only, and the ticks before it the timers only. -/
theorem haltedCpuChangesNothing : Obligations.HaltedCpuChangesNothing := by
  intro s h
  constructor
  · exact ⟨_, cpuStep_of_halted h, rfl, rfl, fun _ => rfl, rfl, ⟨rfl, rfl⟩, ⟨rfl, rfl⟩, fun _ => rfl, fun _ _ => rfl,
      ⟨rfl, rfl, rfl⟩, rfl, rfl, rfl⟩
  · exact ⟨_, cpuStep_of_halted (s := s.ticks s.stimulus.ticks) h, rfl, rfl, fun _ => rfl, rfl, ⟨rfl, rfl⟩,
      fun _ => rfl, fun _ _ => rfl, ⟨rfl, rfl, rfl⟩, rfl, rfl, rfl, toNat_countDown _ _, toNat_countDown _ _⟩

/-! ### What an error leaves -/

/-- A fatal error halts, and under FailFast every error does (R248). -/
theorem ExecError.halts_iff {e : ExecError} {p : ErrPolicy} :
    e.halts p = true ↔ e.errorClass = .fatal ∨ p = .failFast := by
  simp [ExecError.halts]

/-- What `raise` leaves is what R118 and R248 to R251 say of an error. -/
theorem State.raise_afterError (s : State) (e : ExecError) : AfterError e s (s.raise e) := by
  refine ⟨s.raise_outcome e, ?_, s.raise_readV e, s.raise_i e, ⟨s.raise_sp e, s.raise_stk e⟩,
    ⟨s.raise_dt e, s.raise_st e⟩, s.raise_readByte e, fun q c => by simp, s.raise_sameOutside e⟩
  simp only [← ExecError.halts_iff]
  split
  case isTrue h => simp [h]
  case isFalse h => simp [h]

/-- The move to the next event does not touch what an error leaves. -/
theorem AfterError.nextEvent {e : ExecError} {s t : State} (h : AfterError e s t) :
    AfterError e s.nextEvent t.nextEvent := by
  obtain ⟨hout, hstatus, hregs, hindex, hstack, htimers, hmem, hscreen, hcfg, haccT, haccC, hstim, hevent⟩ := h
  exact ⟨hout, hstatus, hregs, hindex, hstack, htimers, hmem, hscreen, hcfg, haccT, haccC, congrArg List.tail hstim,
    congrArg Nat.succ hevent⟩

/-- The advance of PC is not part of what an error leaves. -/
theorem AfterError.of_advancePc {e : ExecError} {s t : State} (h : AfterError e s.advancePc t) : AfterError e s t := h

/-! ### A fetch error -/

theorem cpuStep_of_fetch_error {s : State} {e : ExecError} (hrun : s.halted = false) (he : s.fetch = .error e) :
    cpuStep s = .next (s.raise e).nextEvent := by
  simp [cpuStep, hrun, fetchAndExecute, he, mapNext]

/-- A step event whose fetch fails raises the error of the fetch, and PC stays (R118). -/
theorem cpuStep_fetch_error_afterError {s : State} {e : ExecError} (hrun : s.halted = false) (he : s.fetch = .error e) :
    ∃ t, cpuStep s = .next t ∧ AfterError e s.nextEvent t ∧ t.pc = s.pc :=
  ⟨_, cpuStep_of_fetch_error hrun he, (s.raise_afterError e).nextEvent, s.raise_pc e⟩

/-- Settles O9: the fetch fails at its first address outside, and the ticks do not change it. -/
theorem fetchErrorLeavesPc : Obligations.FetchErrorLeavesPc := by
  rintro s _ hrun hstrict hpc rfl
  have hfetch : s.fetch = .error (.outOfBounds .fetch (if s.pc.toNat = 0xFFF then 0x1000 else s.pc.toNat)) := by
    refine State.fetch_error_iff.mpr ⟨hstrict, ?_⟩
    split
    case isTrue h => exact .inr ⟨h, rfl⟩
    case isFalse h => exact .inl ⟨by omega, rfl⟩
  exact ⟨cpuStep_fetch_error_afterError hrun hfetch,
    cpuStep_fetch_error_afterError (s := s.ticks s.stimulus.ticks) hrun hfetch⟩

theorem State.fetch_error_tag {s : State} {e : ExecError} (h : s.fetch = .error e) : e.tag = .fetch := by
  obtain ⟨-, ⟨-, rfl⟩ | ⟨-, rfl⟩⟩ := State.fetch_error_iff.mp h
  · rfl
  · rfl

/-! ### The errors of an instruction -/

/-- Which instruction raises which error: SYS its own word (R130), and six others the error of the access they make,
which the laws of the access name (`State.loadBytes_error_iff` and its like). -/
inductive Raises (s : State) : Instr → ExecError → Prop
  | sys (nnn : Addr12) : Raises s (.sys nnn) (.illegalInstruction (0x0#4 ++ nnn))
  | ret {e : ExecError} (h : s.pop = .error e) : Raises s .ret e
  | call {nnn : Addr12} {e : ExecError} (h : s.push s.pc = .error e) : Raises s (.call nnn) e
  | drw {x y : RegIx} {n : BitVec 4} {e : ExecError} (h : s.loadBytes s.i.toNat n.toNat = .error e) :
      Raises s (.drw x y n) e
  | ldB {x : RegIx} {e : ExecError} (h : s.storeBytes s.i.toNat (bcdDigits (s.readV x)) = .error e) :
      Raises s (.ldB x) e
  | storeRegs {x : RegIx} {e : ExecError} (h : s.storeBytes s.i.toNat (s.regRange x) = .error e) :
      Raises s (.storeRegs x) e
  | loadRegs {x : RegIx} {e : ExecError} (h : s.loadBytes s.i.toNat (x.toNat + 1) = .error e) :
      Raises s (.loadRegs x) e

theorem Raises.exec_eq {i : Instr} {s : State} {e : ExecError} (h : Raises s i e) : exec i s = .next (s.raise e) := by
  cases h with
  | sys nnn => rfl
  | ret h => simp only [exec, execRet, h]
  | call h => simp only [exec, execCall, h]
  | drw h => simp only [exec, execDrw, h]
  | ldB h => simp only [exec, execLdB, h]
  | storeRegs h => simp only [exec, execStoreRegs, h]
  | loadRegs h => simp only [exec, execLoadRegs, h]

/-- Every instruction raises one of these errors, or ends with an outcome that is no error. -/
theorem exec_raises_or (i : Instr) (s : State) :
    (∃ e, Raises s i e) ∨ ∃ t, exec i s = .next t ∧ ∀ e, t.outcome ≠ some (.err e) := by
  cases i with
  | sys nnn => exact .inl ⟨_, .sys nnn⟩
  | ret =>
    simp only [exec, execRet]
    cases h : s.pop with
    | error e => exact .inl ⟨e, .ret h⟩
    | ok p => exact .inr ⟨_, rfl, by simp⟩
  | call nnn =>
    simp only [exec, execCall]
    cases h : s.push s.pc with
    | error e => exact .inl ⟨e, .call h⟩
    | ok u => exact .inr ⟨_, rfl, by simp⟩
  | drw x y n =>
    simp only [exec, execDrw]
    cases h : s.loadBytes s.i.toNat n.toNat with
    | error e => exact .inl ⟨e, .drw h⟩
    | ok rows => exact .inr ⟨_, rfl, by simp⟩
  | ldB x =>
    simp only [exec, execLdB]
    cases h : s.storeBytes s.i.toNat (bcdDigits (s.readV x)) with
    | error e => exact .inl ⟨e, .ldB h⟩
    | ok u => exact .inr ⟨_, rfl, by simp⟩
  | storeRegs x =>
    simp only [exec, execStoreRegs]
    cases h : s.storeBytes s.i.toNat (s.regRange x) with
    | error e => exact .inl ⟨e, .storeRegs h⟩
    | ok u => exact .inr ⟨_, rfl, by simp⟩
  | loadRegs x =>
    simp only [exec, execLoadRegs]
    cases h : s.loadBytes s.i.toNat (x.toNat + 1) with
    | error e => exact .inl ⟨e, .loadRegs h⟩
    | ok bs => exact .inr ⟨_, rfl, by simp⟩
  | ldVxK x =>
    refine .inr ⟨_, rfl, ?_⟩
    split
    · simp
    · simp
  | cls | jp | jpV0 | seKk | sneKk | seVy | sneVy | ldKk | addKk | ldVy | orVy | andVy | xorVy | addVy | subVy | subnVy
  | shr | shl | rnd | ldI | addI | ldF | skp | sknp | ldVxDt | ldDt | ldSt =>
    exact .inr ⟨_, rfl, by simp⟩

/-- An instruction whose outcome is an error is one that raises it. -/
theorem raises_of_exec {i : Instr} {s t : State} {e : ExecError} (h : exec i s = .next t)
    (he : t.outcome = some (.err e)) : Raises s i e := by
  obtain ⟨e', hraises⟩ | ⟨u, hu, hok⟩ := exec_raises_or i s
  · cases h.symm.trans hraises.exec_eq
    obtain rfl : e' = e := by simpa using he
    exact hraises
  · cases h.symm.trans hu
    exact absurd he (hok e)

/-- An instruction that raises leaves what R118 says, with PC at the advanced value. -/
theorem Raises.exec_afterError {i : Instr} {s : State} {e : ExecError} (h : Raises s i e) :
    ∃ t, exec i s = .next t ∧ t.pc = s.pc ∧ AfterError e s t :=
  ⟨_, h.exec_eq, s.raise_pc e, s.raise_afterError e⟩

/-- No instruction raises with the tag of a fetch. -/
theorem Raises.tag_ne_fetch {i : Instr} {s : State} {e : ExecError} (h : Raises s i e) : e.tag ≠ .fetch := by
  cases h with
  | sys nnn => simp [ExecError.tag]
  | ret h =>
    obtain ⟨_, hpop⟩ | ⟨-, hpop⟩ := s.pop_cases <;> cases h.symm.trans hpop
    simp [ExecError.tag]
  | call h =>
    obtain ⟨_, hpush⟩ | ⟨-, hpush⟩ := s.push_cases s.pc <;> cases h.symm.trans hpush
    simp [ExecError.tag]
  | drw h | loadRegs h =>
    obtain ⟨-, _, -, -, -, rfl⟩ := State.loadBytes_error_iff.mp h
    simp [ExecError.tag]
  | ldB h | storeRegs h =>
    obtain ⟨-, _, -, -, -, rfl⟩ := State.storeBytes_error_iff.mp h
    simp [ExecError.tag]

/-! ### Precise errors -/

/-- A step event that ends in an error, raised in any of the phases: what it leaves, and where PC stands (R118). -/
theorem cpuStep_err {s t : State} {e : ExecError} (h : cpuStep s = .next t) (he : t.outcome = some (.err e)) :
    AfterError e s.nextEvent t ∧ t.pc = (if e.tag = .fetch then s.pc else s.pc + 2#16) := by
  obtain ⟨-, h'⟩ | ⟨-, e', hfetch, h'⟩ | ⟨-, w, r, -, -, h'⟩ | ⟨-, w, i, -, -, h'⟩ := cpuStep_cases s <;> rw [h'] at h
  · cases h
    simp at he
  · cases h
    obtain rfl : e' = e := by simpa using he
    exact ⟨(s.raise_afterError e').nextEvent, by simp [State.fetch_error_tag hfetch]⟩
  · cases h
    obtain rfl : .illegalInstruction w = e := by simpa using he
    exact ⟨(s.advancePc.raise_afterError _).of_advancePc.nextEvent, by simp [ExecError.tag]⟩
  · obtain ⟨u, hu, rfl⟩ := mapNext_eq_next.mp h
    have hraises : Raises s.advancePc i e := raises_of_exec hu he
    cases hu.symm.trans hraises.exec_eq
    exact ⟨(s.advancePc.raise_afterError e).of_advancePc.nextEvent, by simp [hraises.tag_ne_fetch]⟩

/-- Settles O10: the step event is precise, from the state that has taken the ticks. -/
theorem errorsArePrecise : Obligations.ErrorsArePrecise := fun s _ _ h he => cpuStep_err (step_eq s ▸ h) he

/-! ### The first address outside the memory -/

theorem FirstOutOfReach.loadBytes_error {s : State} {n k : Nat} (h : FirstOutOfReach s n k) :
    s.loadBytes s.i.toNat n = .error (.outOfBounds .memRead (s.i.toNat + k)) := by
  obtain ⟨hstrict, hk, hout, hbefore⟩ := h
  exact State.loadBytes_error_iff.mpr ⟨hstrict, k, hk, hout, hbefore, rfl⟩

theorem FirstOutOfReach.storeBytes_error {s : State} {xs : List Byte} {k : Nat} (h : FirstOutOfReach s xs.length k) :
    s.storeBytes s.i.toNat xs = .error (.outOfBounds .memWrite (s.i.toNat + k)) := by
  obtain ⟨hstrict, hk, hout, hbefore⟩ := h
  exact State.storeBytes_error_iff.mpr ⟨hstrict, k, hk, hout, hbefore, rfl⟩

/-- Settles O41: the access of each instruction fails at that address, and its error is the one raised. -/
theorem memoryErrorsNameTheFirstAddress : Obligations.MemoryErrorsNameTheFirstAddress := by
  refine fun s x y n k => ⟨fun h => ?_, fun h => ?_, fun h => ?_, fun h => ?_⟩
  · exact (Raises.drw h.loadBytes_error).exec_afterError
  · exact (Raises.ldB (FirstOutOfReach.storeBytes_error h)).exec_afterError
  · exact (Raises.storeRegs (FirstOutOfReach.storeBytes_error (by simpa using h))).exec_afterError
  · exact (Raises.loadRegs h.loadBytes_error).exec_afterError

end Sys2Proof.Machine

/-! PROOFS. Control flow (spec/41_control_flow.md): SYS, jumps, CALL and RET, and the skips on a constant or a
register. -/

namespace Sys2Proof.Machine

/-! ### The end of a control transfer -/

/-- `done` ends a step with the outcome of a completed instruction (R114 to R116). -/
theorem State.done_completed (s : State) : Completed s.done := ⟨_, s.done_outcome, rfl, s.soundActive_iff⟩

theorem State.jump_done_pcOnly (s : State) (w : Word) : PcOnly s (s.jump w).done :=
  ⟨fun _ => rfl, rfl, ⟨rfl, rfl⟩, ⟨rfl, rfl⟩, fun _ => rfl, fun _ _ => rfl, ⟨rfl, rfl, rfl⟩, rfl, rfl, rfl, rfl, rfl⟩

/-- An address as a jump target keeps its value (R132, R133). -/
theorem toNat_target (nnn : Addr12) : (nnn.setWidth 16).toNat = nnn.toNat :=
  BitVec.toNat_setWidth_of_le (by decide)

/-! ### SYS -/

/-- Settles O20: the row 0NNN is left to SYS, which raises its own word, and that error is fatal by class. -/
theorem sysRaisesIllegalInstruction : Obligations.SysRaisesIllegalInstruction := by
  intro nnn s hcls hret
  have hwf : (Instr.sys nnn).wellFormed = true := by simp [Instr.wellFormed, hcls, hret]
  have hraise : exec (.sys nnn) s = .next (s.raise (.illegalInstruction (0x0#4 ++ nnn))) := (Raises.sys nnn).exec_eq
  have hfatal : (ExecError.illegalInstruction (0x0#4 ++ nnn)).halts s.cfg.errPolicy = true :=
    ExecError.halts_iff.mpr (.inl rfl)
  exact ⟨decodeWord_encode (i := .sys nnn) hwf, _, hraise, s.raise_afterError _, by simp [hfatal], s.raise_pc _⟩

/-! ### Jumps -/

/-- Settles O21: the jump's target is the address. -/
theorem jumpOverwritesPc : Obligations.JumpOverwritesPc := fun nnn s =>
  ⟨decodeWord_encode (i := .jp nnn) rfl, _, rfl, State.done_completed _, s.jump_done_pcOnly _, toNat_target nnn⟩

/-- The sum of a 12-bit address and a byte fits in PC, so BNNN's target is not reduced (R138, D18). -/
theorem toNat_offset_target (nnn : Addr12) (b : Byte) :
    (nnn.setWidth 16 + b.setWidth 16 : Word).toNat = nnn.toNat + b.toNat := by
  have hnnn : nnn.toNat < 4096 := nnn.isLt
  have hb : b.toNat < 256 := b.isLt
  simp only [BitVec.toNat_add, BitVec.toNat_setWidth]
  omega

/-- Settles O27: the jump's target is the sum. -/
theorem offsetJumpAddsV0 : Obligations.OffsetJumpAddsV0 := fun nnn s =>
  ⟨decodeWord_encode (i := .jpV0 nnn) rfl, _, rfl, State.done_completed _, s.jump_done_pcOnly _,
    toNat_offset_target nnn _⟩

/-! ### CALL and RET -/

theorem State.push_of_lt {s : State} (w : Word) (h : s.sp.val < 16) :
    s.push w = .ok { s with stk := s.stk.set s.sp.val w h, sp := ⟨s.sp.val + 1, by omega⟩ } := by
  obtain ⟨_, hpush⟩ | ⟨hfull, -⟩ := s.push_cases w
  · exact hpush
  · omega

theorem State.push_of_full {s : State} (w : Word) (h : s.sp.val = 16) : s.push w = .error .stackOverflow :=
  ((s.push_cases w).resolve_left fun ⟨hlt, _⟩ => by omega).2

theorem State.pop_of_succ {s : State} {k : Nat} (hk : k < 16) (h : s.sp.val = k + 1) :
    s.pop = .ok (s.stk[k], { s with sp := ⟨k, by omega⟩ }) := by
  obtain ⟨_, hpop⟩ | ⟨hempty, -⟩ := s.pop_cases
  · simpa only [h, Nat.add_sub_cancel] using hpop
  · omega

theorem State.pop_of_empty {s : State} (h : s.sp.val = 0) : s.pop = .error .stackUnderflow :=
  (s.pop_cases.resolve_left fun ⟨hne, _⟩ => hne h).2

theorem exec_call_of_push {nnn : Addr12} {s t : State} (h : s.push s.pc = .ok t) :
    exec (.call nnn) s = .next (t.jump (nnn.setWidth 16)).done := by
  simp only [exec, execCall, h]

theorem exec_ret_of_pop {s t : State} {w : Word} (h : s.pop = .ok (w, t)) : exec .ret s = .next (t.jump w).done := by
  simp only [exec, execRet, h]

/-- Settles O22: a push with room writes the entry at SP, and one without room is the error raised. -/
theorem callPushesOrOverflows : Obligations.CallPushesOrOverflows := by
  refine fun nnn s => ⟨decodeWord_encode (i := .call nnn) rfl, fun hroom => ?_, fun hfull => ?_⟩
  · have hentries (k : Nat) (hk : k < 16) :
        (s.stk.set s.sp.val s.pc hroom)[k] = if k = s.sp.val then s.pc else s.stk[k] := by
      simp [Vector.getElem_set, eq_comm]
    exact ⟨_, exec_call_of_push (State.push_of_lt s.pc hroom), State.done_completed _, toNat_target nnn, rfl, hentries,
      fun _ => rfl, rfl, ⟨rfl, rfl⟩, fun _ => rfl, fun _ _ => rfl, ⟨rfl, rfl, rfl⟩, rfl, rfl, rfl, rfl, rfl⟩
  · obtain ⟨t, ht, hpc, herr⟩ := (Raises.call (nnn := nnn) (State.push_of_full s.pc hfull)).exec_afterError
    exact ⟨t, ht, herr, hpc⟩

/-- Settles O23: a pop with an entry reads it and lowers SP, and one without is the error raised. -/
theorem retPopsOrUnderflows : Obligations.RetPopsOrUnderflows := by
  refine fun s => ⟨decodeWord_encode (i := .ret) rfl, fun k hk hsp => ?_, fun hempty => ?_⟩
  · exact ⟨_, exec_ret_of_pop (State.pop_of_succ hk hsp), State.done_completed _, rfl, rfl, rfl,
      fun _ => rfl, rfl, ⟨rfl, rfl⟩, fun _ => rfl, fun _ _ => rfl, ⟨rfl, rfl, rfl⟩, rfl, rfl, rfl, rfl, rfl⟩
  · obtain ⟨t, ht, hpc, herr⟩ := (Raises.ret (State.pop_of_empty hempty)).exec_afterError
    exact ⟨t, ht, herr, hpc⟩

/-! ### Skips -/

/-- A skip jumps 2 further, or to where PC is (R139). -/
theorem State.skipIf_eq_jump (s : State) (c : Bool) : s.skipIf c = s.jump (if c then s.pc + 2#16 else s.pc) := by
  cases c with
  | true => rfl
  | false => rfl

/-- What a completed skip leaves, by its condition (R139). -/
theorem State.skipIf_done (s : State) (c : Prop) [Decidable c] :
    Completed (s.skipIf (decide c)).done ∧ PcOnly s (s.skipIf (decide c)).done ∧
      (s.skipIf (decide c)).done.pc.toNat = (s.pc.toNat + if c then 2 else 0) % 65536 := by
  refine ⟨State.done_completed _, ?_, ?_⟩
  · rw [State.skipIf_eq_jump]
    exact s.jump_done_pcOnly _
  · simpa only [State.done_pc, decide_eq_true_eq] using s.skipIf_pc_toNat (decide c)

/-- What a completed skip leaves when the instruction skips unless `c`. -/
theorem State.skipIf_not_done (s : State) (c : Prop) [Decidable c] :
    Completed (s.skipIf (decide ¬c)).done ∧ PcOnly s (s.skipIf (decide ¬c)).done ∧
      (s.skipIf (decide ¬c)).done.pc.toNat = (s.pc.toNat + if c then 0 else 2) % 65536 := by
  simpa only [ite_not] using s.skipIf_done (¬c)

/-- Settles O25: SE skips on equality with the constant, SNE unless it holds. -/
theorem skipOnConstant : Obligations.SkipOnConstant := fun x kk s =>
  ⟨decodeWord_encode (i := .seKk x kk) rfl, decodeWord_encode (i := .sneKk x kk) rfl,
    ⟨_, rfl, s.skipIf_done (s.readV x = kk)⟩, ⟨_, rfl, s.skipIf_not_done (s.readV x = kk)⟩⟩

/-- Settles O26: SE skips on equality of the registers, SNE unless it holds. -/
theorem skipOnRegister : Obligations.SkipOnRegister := fun x y s =>
  ⟨decodeWord_encode (i := .seVy x y) rfl, decodeWord_encode (i := .sneVy x y) rfl,
    ⟨_, rfl, s.skipIf_done (s.readV x = s.readV y)⟩, ⟨_, rfl, s.skipIf_not_done (s.readV x = s.readV y)⟩⟩

end Sys2Proof.Machine

/-! PROOFS. Loads and arithmetic (spec/42_load_alu.md): what the ALU computes on bytes, and what a completed write of a
register, with a flag or without, leaves. -/

namespace Sys2Proof.Machine

/-! ### The ALU on bytes -/

theorem toNat_addByte (a b : Byte) : (addByte a b).toNat = (a.toNat + b.toNat) % 256 := by
  simp [addByte]

/-- The two cases of the difference are one residue modulo 256 (R162). -/
theorem toNat_subByte (a b : Byte) : ((subByte a b).toNat : Int) = (a.toNat - b.toNat : Int) % 256 := by
  have ha : a.toNat < 256 := a.isLt
  have hb : b.toNat < 256 := b.isLt
  unfold subByte
  split
  · rw [BitVec.toNat_ofNat]; omega
  · rw [BitVec.toNat_ofNat]; omega

theorem toNat_shrByte (a : Byte) : (shrByte a).toNat = a.toNat / 2 := by
  have ha : a.toNat < 256 := a.isLt
  rw [shrByte, BitVec.toNat_ofNat]
  omega

theorem toNat_shlByte (a : Byte) : (shlByte a).toNat = 2 * a.toNat % 256 := by
  simp [shlByte]

/-! ### Flags -/

theorem toNat_flagByte (b : Bool) : (flagByte b).toNat = b.toNat := by
  cases b with
  | false => rfl
  | true => rfl

/-- The flag of a comparison, as the carry (R156) and the not-borrow (R157) are. -/
theorem toNat_flagByte_decide (c : Prop) [Decidable c] : (flagByte (decide c)).toNat = if c then 1 else 0 := by
  by_cases hc : c
  · simp [toNat_flagByte, hc]
  · simp [toNat_flagByte, hc]

/-- The flag that takes bit `k` of a byte, as the bits shifted out are (R158, R160). -/
theorem toNat_flagByte_getLsbD (a : Byte) (k : Nat) : (flagByte (a.getLsbD k)).toNat = a.toNat / 2 ^ k % 2 := by
  rw [toNat_flagByte, BitVec.getLsbD, Nat.toNat_testBit]

theorem toNat_flagByte_shrOut (a : Byte) : (flagByte (shrOut a)).toNat = a.toNat % 2 := by
  have hbit : (flagByte (shrOut a)).toNat = a.toNat / 1 % 2 := toNat_flagByte_getLsbD a 0
  rwa [Nat.div_one] at hbit

/-- A byte is below 256, so its quotient by 128 is its bit 7. -/
theorem toNat_flagByte_shlOut (a : Byte) : (flagByte (shlOut a)).toNat = a.toNat / 128 := by
  have ha : a.toNat < 256 := a.isLt
  have hbit : (flagByte (shlOut a)).toNat = a.toNat / 128 % 2 := toNat_flagByte_getLsbD a 7
  omega

/-! ### What a completed register write leaves -/

theorem State.writeV_done_frame (s : State) (x : RegIx) (b : Byte) : RegsAndPcOnly s (s.writeV x b).done :=
  ⟨rfl, ⟨rfl, rfl⟩, ⟨rfl, rfl⟩, fun _ => rfl, fun _ _ => rfl, ⟨rfl, rfl, rfl⟩, rfl, rfl, rfl, rfl, rfl⟩

/-- A completed write of `V[x]` alone: the outcome, the frame, every other register, and the value written. -/
theorem State.writeV_done (s : State) (x : RegIx) {b : Byte} {P : Byte → Prop} (hb : P b) :
    Completed (s.writeV x b).done ∧ (s.writeV x b).done.pc = s.pc ∧ RegsAndPcOnly s (s.writeV x b).done ∧
      SameRegsBut x s (s.writeV x b).done ∧ P ((s.writeV x b).done.readV x) := by
  refine ⟨State.done_completed _, rfl, s.writeV_done_frame x b, fun r hr => ?_, ?_⟩
  · simp [hr]
  · simpa using hb

/-- A register after a result and its flag: the flag is written last, so VF holds it even as the destination (R163). -/
theorem State.readV_writeResult (s : State) (x y : RegIx) (r : Byte) (flag : Bool) :
    (s.writeResult x r flag).readV y = if y = vf then flagByte flag else if y = x then r else s.readV y := by
  rw [State.writeResult, State.readV_writeV, State.readV_writeV]

/-- A completed write of a result and its flag: the outcome, the frame, VF, the result where VF does not take its place,
and every other register. -/
theorem State.writeResult_done (s : State) (x : RegIx) {r : Byte} {flag : Bool} {n : Nat} {P : Byte → Prop}
    (hflag : (flagByte flag).toNat = n) (hr : P r) :
    Completed (s.writeResult x r flag).done ∧ (s.writeResult x r flag).done.pc = s.pc ∧
      RegsAndPcOnly s (s.writeResult x r flag).done ∧ ((s.writeResult x r flag).done.readV vf).toNat = n ∧
      (x ≠ vf → P ((s.writeResult x r flag).done.readV x)) ∧
      (∀ y, y ≠ x → y ≠ vf → (s.writeResult x r flag).done.readV y = s.readV y) := by
  have hframe : RegsAndPcOnly s (s.writeResult x r flag).done := (s.writeV x r).writeV_done_frame vf (flagByte flag)
  refine ⟨State.done_completed _, rfl, hframe, ?_, fun hx => ?_, fun y hyx hyf => ?_⟩
  · simpa [State.readV_writeResult] using hflag
  · simpa [State.readV_writeResult, hx] using hr
  · simp [State.readV_writeResult, hyx, hyf]

/-! ### Arithmetic and shifts: a result and a flag -/

/-- Settles O31: the result is the sum modulo 256 and the flag its carry. -/
theorem addRegistersSetsCarry : Obligations.AddRegistersSetsCarry := fun x y s =>
  ⟨decodeWord_encode (i := .addVy x y) rfl, _, rfl,
    s.writeResult_done x (P := fun r => r.toNat = _) (toNat_flagByte_decide _) (toNat_addByte _ _)⟩

/-- Settles O32: the result is the difference modulo 256 and the flag says that nothing was borrowed. -/
theorem subtractionsSetNoBorrow : Obligations.SubtractionsSetNoBorrow := fun x y s =>
  ⟨decodeWord_encode (i := .subVy x y) rfl, decodeWord_encode (i := .subnVy x y) rfl,
    ⟨_, rfl, s.writeResult_done x (P := fun r => (r.toNat : Int) = _) (toNat_flagByte_decide _) (toNat_subByte _ _)⟩,
    ⟨_, rfl, s.writeResult_done x (P := fun r => (r.toNat : Int) = _) (toNat_flagByte_decide _) (toNat_subByte _ _)⟩⟩

/-- The shifted register is the one `CFG.shift_src` names (R158, D2). -/
theorem State.shiftOperand_eq (s : State) (x y : RegIx) :
    s.shiftOperand x y = if s.cfg.shiftSrc = .vy then s.readV y else s.readV x := by
  unfold State.shiftOperand
  cases s.cfg.shiftSrc with
  | vx => rfl
  | vy => rfl

/-- Settles O33: the result is the operand halved or doubled and the flag the bit this drops. -/
theorem shiftsPutTheBitOutInVf : Obligations.ShiftsPutTheBitOutInVf := by
  intro x y s a ha
  obtain rfl : a = s.shiftOperand x y := ha.trans (s.shiftOperand_eq x y).symm
  exact ⟨decodeWord_encode (i := .shr x y) rfl, decodeWord_encode (i := .shl x y) rfl,
    ⟨_, rfl, s.writeResult_done x (P := fun r => r.toNat = _) (toNat_flagByte_shrOut _) (toNat_shrByte _)⟩,
    ⟨_, rfl, s.writeResult_done x (P := fun r => r.toNat = _) (toNat_flagByte_shlOut _) (toNat_shlByte _)⟩⟩

/-! ### Loads, additions of a constant and bitwise operations: one register and no flag -/

/-- Settles O28: each load is one register write. -/
theorem loadsOfConstantAndRegister : Obligations.LoadsOfConstantAndRegister := fun x y kk s =>
  ⟨decodeWord_encode (i := .ldKk x kk) rfl, decodeWord_encode (i := .ldVy x y) rfl,
    ⟨_, rfl, s.writeV_done x (P := fun b => b = kk) rfl⟩, ⟨_, rfl, s.writeV_done x (P := fun b => b = s.readV y) rfl⟩⟩

/-- Settles O29: the one register written takes the sum modulo 256. -/
theorem addConstantWritesNoFlag : Obligations.AddConstantWritesNoFlag := fun x kk s =>
  ⟨decodeWord_encode (i := .addKk x kk) rfl, _, rfl,
    s.writeV_done x (P := fun b => b.toNat = _) (toNat_addByte _ kk)⟩

/-- Settles O30: each is one register write, and a bit of the word operation is the operation on the bits. -/
theorem bitwiseOperationsBitByBit : Obligations.BitwiseOperationsBitByBit := fun x y s =>
  ⟨decodeWord_encode (i := .orVy x y) rfl, decodeWord_encode (i := .andVy x y) rfl,
    decodeWord_encode (i := .xorVy x y) rfl,
    ⟨_, rfl, s.writeV_done x (P := fun b => ∀ k, b.getLsbD k = ((s.readV x).getLsbD k || (s.readV y).getLsbD k))
      fun _ => BitVec.getLsbD_or⟩,
    ⟨_, rfl, s.writeV_done x (P := fun b => ∀ k, b.getLsbD k = ((s.readV x).getLsbD k && (s.readV y).getLsbD k))
      fun _ => BitVec.getLsbD_and⟩,
    ⟨_, rfl, s.writeV_done x (P := fun b => ∀ k, b.getLsbD k = ((s.readV x).getLsbD k ^^ (s.readV y).getLsbD k))
      fun _ => BitVec.getLsbD_xor⟩⟩

/-- Settles O34: the one register written takes the draw, masked. -/
theorem randomLoadIsMasked : Obligations.RandomLoadIsMasked := fun x kk s =>
  ⟨decodeWord_encode (i := .rnd x kk) rfl, _, rfl,
    s.writeV_done x (P := fun b => ∀ k, b.getLsbD k = (s.rnd.getLsbD k && kk.getLsbD k))
      fun _ => BitVec.getLsbD_and⟩

end Sys2Proof.Machine

/-! PROOFS. The index register and the memory instructions (spec/43_index_memory.md): what `WriteI` leaves, the BCD
digits, and the range of registers that FX55 stores and FX65 loads. -/

namespace Sys2Proof.Machine

/-! ### The index register -/

/-- I after `WriteI`: reduced as `CFG.i_mask12` says (R176). -/
theorem State.toNat_writeI_i (s : State) (n : Nat) :
    (s.writeI n).i.toNat = n % (if s.cfg.iMask12 = true then 4096 else 65536) := by
  rw [State.writeI_i, BitVec.toNat_ofNat]
  split
  case isTrue => exact Nat.mod_mod_of_dvd' (by decide)
  case isFalse => exact Nat.mod_mod n 65536

/-- `WriteI` keeps a value of 12 bits under either width of I (R170, R176). -/
theorem State.toNat_writeI_i_of_lt (s : State) {n : Nat} (h : n < 4096) : (s.writeI n).i.toNat = n := by
  rw [State.toNat_writeI_i]
  split
  case isTrue => exact Nat.mod_eq_of_lt h
  case isFalse => exact Nat.mod_eq_of_lt (by omega)

/-- A completed `WriteI`: the outcome, PC, the value of I, and everything else as before. -/
theorem State.writeI_done (s : State) {n m : Nat} (h : (s.writeI n).i.toNat = m) :
    Completed (s.writeI n).done ∧ (s.writeI n).done.pc = s.pc ∧ (s.writeI n).done.i.toNat = m ∧
      SameRegs s (s.writeI n).done ∧ SameStack s (s.writeI n).done ∧ SameTimers s (s.writeI n).done ∧
      SameMemory s (s.writeI n).done ∧ SameScreen s (s.writeI n).done ∧ SameStatus s (s.writeI n).done ∧
      SameOutside s (s.writeI n).done :=
  ⟨State.done_completed _, rfl, h, fun _ => rfl, ⟨rfl, rfl⟩, ⟨rfl, rfl⟩, fun _ => rfl, fun _ _ => rfl,
    ⟨rfl, rfl, rfl⟩, rfl, rfl, rfl, rfl, rfl⟩

/-- Settles O35: an address has 12 bits, so `WriteI` keeps it. -/
theorem loadIndexConstant : Obligations.LoadIndexConstant := fun nnn s =>
  ⟨decodeWord_encode (i := .ldI nnn) rfl, _, rfl, s.writeI_done (s.toNat_writeI_i_of_lt nnn.isLt)⟩

/-- Settles O36: I takes the sum as `WriteI` reduces it. -/
theorem addToIndexWritesNoFlag : Obligations.AddToIndexWritesNoFlag := fun x s =>
  ⟨decodeWord_encode (i := .addI x) rfl, _, rfl, s.writeI_done (s.toNat_writeI_i _)⟩

/-- The glyph of a digit stands five bytes further for each digit (R72, R172). -/
theorem glyphAddr_eq (b : Byte) : glyphAddr b = 0x050 + 5 * (b.toNat % 16) := by
  rw [glyphAddr, lowNibble_eq, fontBase]

/-- Settles O37: the address of a glyph has 12 bits, so `WriteI` keeps it. -/
theorem glyphAddressOfLowDigit : Obligations.GlyphAddressOfLowDigit := by
  intro x s
  have hlt : glyphAddr (s.readV x) < 4096 := by rw [glyphAddr_eq]; omega
  exact ⟨decodeWord_encode (i := .ldF x) rfl, _, rfl,
    s.writeI_done ((s.toNat_writeI_i_of_lt hlt).trans (glyphAddr_eq _))⟩

/-! ### BCD -/

@[simp] theorem length_bcdDigits (b : Byte) : (bcdDigits b).length = 3 := rfl

/-- A byte is below 256, so its three digits are bytes (R173). -/
theorem map_toNat_bcdDigits (b : Byte) :
    (bcdDigits b).map BitVec.toNat = [b.toNat / 100, b.toNat / 10 % 10, b.toNat % 10] := by
  have hb : b.toNat < 256 := b.isLt
  have hhundreds : b.toNat / 100 % 256 = b.toNat / 100 := by omega
  have htens : b.toNat / 10 % 10 % 256 = b.toNat / 10 % 10 := by omega
  have hones : b.toNat % 10 % 256 = b.toNat % 10 := by omega
  simp [bcdDigits, hhundreds, htens, hones]

/-- A store keeps every byte outside its addresses (R66). -/
theorem State.storeBytes_sameMemoryBut {s t : State} {a : Nat} {xs : List Byte} (h : s.storeBytes a xs = .ok t) :
    SameMemoryBut a xs.length s t :=
  State.storeBytes_read_other h

theorem exec_ldB_of_store {x : RegIx} {s t : State} (h : s.storeBytes s.i.toNat (bcdDigits (s.readV x)) = .ok t) :
    exec (.ldB x) s = .next t.done := by
  simp only [exec, execLdB, h]

/-- Settles O38: the three digits are stored in order, and the store changes memory only. -/
theorem bcdStoresThreeDigits : Obligations.BcdStoresThreeDigits := by
  intro x s hreach
  obtain ⟨u, hu⟩ := State.storeBytes_of_inReach (xs := bcdDigits (s.readV x)) hreach
  obtain ⟨m, rfl⟩ := State.storeBytes_memOnly hu
  have hdigit (k : Nat) (hk : k < 3) :
      (m.read ((s.i.toNat + k) % 4096)).toNat = ((bcdDigits (s.readV x)).map BitVec.toNat)[k]'(by simpa using hk) := by
    rw [List.getElem_map]
    exact congrArg BitVec.toNat (State.storeBytes_read hu (by simp) k hk)
  simp only [map_toNat_bcdDigits] at hdigit
  exact ⟨decodeWord_encode (i := .ldB x) rfl, _, exec_ldB_of_store hu, State.done_completed _, rfl,
    hdigit 0 (by decide), hdigit 1 (by decide), hdigit 2 (by decide), State.storeBytes_sameMemoryBut hu, fun _ => rfl,
    rfl, ⟨rfl, rfl⟩, ⟨rfl, rfl⟩, fun _ _ => rfl, ⟨rfl, rfl, rfl⟩, rfl, rfl, rfl, rfl, rfl⟩

/-! ### Ranges of registers -/

/-- I after FX55 and FX65 (R174, R175, R176). -/
theorem State.toNat_advanceI_i (s : State) (base : Nat) (x : RegIx) :
    (s.advanceI base x).i.toNat = if s.cfg.ldstInc = true
      then (base + x.toNat + 1) % (if s.cfg.iMask12 = true then 4096 else 65536) else s.i.toNat := by
  rw [State.advanceI_i, ← State.toNat_writeI_i]
  split
  · rfl
  · rfl

/-- The advance of I that ends FX55 and FX65 leaves what lies outside the registers, PC and memory alone. -/
theorem State.advanceI_done_frame (s : State) (base : Nat) (x : RegIx) :
    SameStack s (s.advanceI base x).done ∧ SameTimers s (s.advanceI base x).done ∧
      SameScreen s (s.advanceI base x).done ∧ SameStatus s (s.advanceI base x).done ∧
      SameOutside s (s.advanceI base x).done := by
  simp [SameStack, SameTimers, SameScreen, SameStatus, SameOutside]

theorem exec_storeRegs_of_store {x : RegIx} {s t : State} (h : s.storeBytes s.i.toNat (s.regRange x) = .ok t) :
    exec (.storeRegs x) s = .next (t.advanceI s.i.toNat x).done := by
  simp only [exec, execStoreRegs, h]

/-- Settles O39: the registers are stored in order, and the store changes memory only. -/
theorem storeRegistersFromI : Obligations.StoreRegistersFromI := by
  intro x s hreach
  obtain ⟨u, hu⟩ := State.storeBytes_of_inReach (xs := s.regRange x) (s.length_regRange x ▸ hreach)
  obtain ⟨m, rfl⟩ := State.storeBytes_memOnly hu
  have hexec := exec_storeRegs_of_store hu
  have hother : SameMemoryBut s.i.toNat (x.toNat + 1) s { s with mem := m } :=
    s.length_regRange x ▸ State.storeBytes_sameMemoryBut hu
  exact ⟨decodeWord_encode (i := .storeRegs x) rfl, _, hexec, State.done_completed _, by simp,
    exec_storeRegs_readByte hreach hexec, fun a ha => by simpa using hother a ha, State.toNat_advanceI_i _ _ x,
    State.advanceI_readV _ _ x, State.advanceI_done_frame _ _ x⟩

/-- A load of bytes that are all in reach answers each byte at its own address (R65). -/
theorem State.loadBytes_of_inReach {s : State} {n : Nat} (h : InReach s n) :
    s.loadBytes s.i.toNat n = .ok ((List.range n).map fun k => s.readByte ((s.i.toNat + k) % 4096)) :=
  State.loadBytes_ok_iff.mpr ⟨h, rfl⟩

/-- A register after a block write of `f 0` to `f (n - 1)` (R175). -/
theorem State.readV_writeRange_map_range (s : State) (f : Nat → Byte) (n : Nat) (r : RegIx) :
    (s.writeRange ((List.range n).map f)).readV r = if r.toNat < n then f r.toNat else s.readV r := by
  rw [State.readV_writeRange]
  split
  case isTrue h => simp [h]
  case isFalse h => exact List.getD_eq_default _ _ (by simpa using h)

theorem exec_loadRegs_of_load {x : RegIx} {s : State} {bs : List Byte}
    (h : s.loadBytes s.i.toNat (x.toNat + 1) = .ok bs) :
    exec (.loadRegs x) s = .next ((s.writeRange bs).advanceI s.i.toNat x).done := by
  simp only [exec, execLoadRegs, h]

/-- Settles O40: the bytes loaded are written to the registers in order, and nothing else but I is written. -/
theorem loadRegistersFromI : Obligations.LoadRegistersFromI := by
  intro x s hreach
  have hexec := exec_loadRegs_of_load (State.loadBytes_of_inReach hreach)
  refine ⟨decodeWord_encode (i := .loadRegs x) rfl, _, hexec, State.done_completed _, by simp, fun r => ?_,
    State.toNat_advanceI_i _ _ x, State.advanceI_readByte _ _ x, State.advanceI_done_frame _ _ x⟩
  rw [State.done_readV, State.advanceI_readV, State.readV_writeRange_map_range]
  simp only [Nat.lt_succ_iff]

end Sys2Proof.Machine

/-! PROOFS. The framebuffer and its two instructions (spec/44_display.md): which pixels the sprite drawer inverts, when it
reports a collision, and what CLS and DRW leave. -/

namespace Sys2Proof.Machine

/-! ### Pixels -/

theorem Grid.pixel_setPixel (g : Grid) (q q' : Fin 32) (c c' : Fin 64) (p : Bool) :
    (g.setPixel q c p).pixel q' c' = if q' = q ∧ c' = c then p else g.pixel q' c' := by
  by_cases hq : q' = q
  · subst hq
    by_cases hc : c' = c
    · simp [Grid.pixel, Grid.setPixel, hc]
    · have hne : c.val ≠ c'.val := fun h => hc (Fin.ext h.symm)
      simp [Grid.pixel, Grid.setPixel, Vector.getElem_set_ne, hc, hne]
  · have hne : q.val ≠ q'.val := fun h => hq (Fin.ext h.symm)
    simp [Grid.pixel, Grid.setPixel, Vector.getElem_set_ne, hq, hne]

@[simp] theorem Grid.pixel_clear (q : Fin 32) (c : Fin 64) : Grid.clear.pixel q c = false := by
  simp [Grid.pixel, Grid.clear]

/-- Two framebuffers with the same pixels are the same. -/
theorem Grid.ext_pixel {g h : Grid} (hpixel : ∀ q c, g.pixel q c = h.pixel q c) : g = h :=
  Vector.ext fun q hq => Vector.ext fun c hc => hpixel ⟨q, hq⟩ ⟨c, hc⟩

/-! ### Coordinates -/

/-- The wrap of a column is applied to the sum, so the start may be reduced first (R183). -/
theorem spriteCol_mod (x0 b : Nat) : spriteCol (x0 % 64) b = spriteCol x0 b :=
  Fin.ext (Nat.mod_add_mod x0 64 b)

theorem spriteRow_mod (y0 r : Nat) : spriteRow (y0 % 32) r = spriteRow y0 r :=
  Fin.ext (Nat.mod_add_mod y0 32 r)

theorem drawRow_mod (x0 : Nat) : drawRow (x0 % 64) = drawRow x0 := by
  have hbit : drawBit (x0 % 64) = drawBit x0 := by
    funext q byte acc b
    simp only [drawBit, spriteCol_mod]
  funext q byte acc
  rw [drawRow, hbit, drawRow]

theorem drawRows_mod (x0 y0 r : Nat) (rows : List Byte) (acc : Grid × Bool) :
    drawRows (x0 % 64) (y0 % 32) r rows acc = drawRows x0 y0 r rows acc := by
  induction rows generalizing r acc with
  | nil => rfl
  | cons byte rows ih => rw [drawRows, ih, drawRow_mod, spriteRow_mod, drawRows]

/-- Settles O46: every column and row of the sprite is reduced as a sum. -/
theorem drawCoordinatesWrap : Obligations.DrawCoordinatesWrap := fun x0 y0 rows g =>
  (drawRows_mod x0 y0 0 rows (g, false)).symm

/-- Starting `r` rows into the sprite is starting `r` rows further down. -/
theorem drawRows_eq_add (x0 y0 r : Nat) (rows : List Byte) (acc : Grid × Bool) :
    drawRows x0 y0 r rows acc = drawRows x0 (y0 + r) 0 rows acc := by
  induction rows generalizing y0 r acc with
  | nil => rfl
  | cons byte rows ih =>
    have hrow : spriteRow y0 r = spriteRow (y0 + r) 0 := rfl
    rw [drawRows, drawRows, ih, ih (y0 + r), hrow, Nat.add_assoc y0 r]

/-! ### What the drawer does -/

/-- Drawing takes `a`, a framebuffer and a collision flag, to `b`: the pixels of `P` are inverted, the others stay, and
the flag is raised when a pixel of `P` was set (R182). -/
structure Flips (P : Fin 32 → Fin 64 → Prop) (a b : Grid × Bool) : Prop where
  covered : ∀ q c, P q c → b.1.pixel q c = !a.1.pixel q c
  other : ∀ q c, ¬ P q c → b.1.pixel q c = a.1.pixel q c
  collision : b.2 = true ↔ a.2 = true ∨ ∃ q c, P q c ∧ a.1.pixel q c = true

theorem Flips.refl {P : Fin 32 → Fin 64 → Prop} (hP : ∀ q c, ¬ P q c) (a : Grid × Bool) : Flips P a a where
  covered q c h := absurd h (hP q c)
  other _ _ _ := rfl
  collision := by simp [hP]

theorem Flips.congr {P Q : Fin 32 → Fin 64 → Prop} {a b : Grid × Bool} (h : Flips P a b)
    (hPQ : ∀ q c, Q q c ↔ P q c) : Flips Q a b := by
  obtain rfl : Q = P := funext₂ fun q c => propext (hPQ q c)
  exact h

/-- Two draws that have no pixel in common are one draw of both: the second sees its pixels as they were before the
first, so the order does not matter (R184). -/
theorem Flips.trans {P Q : Fin 32 → Fin 64 → Prop} {a b d : Grid × Bool} (hab : Flips P a b) (hbd : Flips Q b d)
    (hdisj : ∀ q c, P q c → ¬ Q q c) : Flips (fun q c => P q c ∨ Q q c) a d where
  covered q c := by
    rintro (hP | hQ)
    · rw [hbd.other q c (hdisj q c hP), hab.covered q c hP]
    · rw [hbd.covered q c hQ, hab.other q c fun hP => hdisj q c hP hQ]
  other q c h := by
    obtain ⟨hP, hQ⟩ := not_or.mp h
    rw [hbd.other q c hQ, hab.other q c hP]
  collision := by
    have hsecond : (∃ q c, Q q c ∧ b.1.pixel q c = true) ↔ ∃ q c, Q q c ∧ a.1.pixel q c = true :=
      exists₂_congr fun q c => and_congr_right fun hQ => by rw [hab.other q c fun hP => hdisj q c hP hQ]
    rw [hbd.collision, hab.collision, hsecond, or_assoc]
    simp only [or_and_right, exists_or]

theorem drawBit_flips (x0 : Nat) (q : Fin 32) (byte : Byte) (acc : Grid × Bool) (b : Nat) :
    Flips (fun q' c => q' = q ∧ c = spriteCol x0 b ∧ byte.getLsbD (7 - b) = true) acc (drawBit x0 q byte acc b) where
  covered q' c := by
    rintro ⟨rfl, rfl, hbit⟩
    simp [drawBit, Grid.pixel_setPixel, hbit]
  other q' c h := by
    rw [drawBit, Grid.pixel_setPixel]
    split
    case isTrue hat =>
      obtain ⟨rfl, rfl⟩ := hat
      have hbit : byte.getLsbD (7 - b) = false := by simpa using h
      simp [hbit]
    case isFalse => rfl
  collision := by simp [drawBit, and_comm]

/-- The first `m` bits of the row `byte`, drawn from column `x0` into row `q0`, have a 1 over the pixel. -/
def BitsOver (byte : Byte) (m x0 : Nat) (q0 q : Fin 32) (c : Fin 64) : Prop :=
  q = q0 ∧ ∃ b < m, (x0 + b) % 64 = c.val ∧ byte.getLsbD (7 - b) = true

theorem bitsOver_succ {byte : Byte} {m x0 : Nat} {q0 q : Fin 32} {c : Fin 64} :
    BitsOver byte (m + 1) x0 q0 q c ↔
      BitsOver byte m x0 q0 q c ∨ q = q0 ∧ c = spriteCol x0 m ∧ byte.getLsbD (7 - m) = true := by
  have hcol : c = spriteCol x0 m ↔ (x0 + m) % 64 = c.val := Fin.ext_iff.trans eq_comm
  simp only [BitsOver, Nat.exists_lt_succ_right, and_or_left, hcol]

/-- The bits of a row fall on columns that differ, while there are at most 64 of them (R184). -/
theorem foldl_drawBit_flips (x0 : Nat) (q : Fin 32) (byte : Byte) {m : Nat} (hm : m ≤ 64) (acc : Grid × Bool) :
    Flips (BitsOver byte m x0 q) acc ((List.range m).foldl (drawBit x0 q byte) acc) := by
  induction m with
  | zero => exact .refl (by simp [BitsOver]) acc
  | succ m ih =>
    rw [List.range_succ, List.foldl_append]
    refine ((ih (by omega)).trans (drawBit_flips x0 q byte _ m) ?_).congr fun _ _ => bitsOver_succ
    rintro q' c ⟨-, b, hb, hcol, -⟩ ⟨-, rfl, -⟩
    have hsame : (x0 + b) % 64 = (x0 + m) % 64 := hcol
    omega

theorem drawRow_flips (x0 : Nat) (q : Fin 32) (byte : Byte) (acc : Grid × Bool) :
    Flips (BitsOver byte 8 x0 q) acc (drawRow x0 q byte acc) :=
  foldl_drawBit_flips x0 q byte (by decide) acc

/-- A sprite is its top row and the sprite below it. -/
theorem spriteOver_cons {byte : Byte} {rows : List Byte} {x0 y0 : Nat} {q : Fin 32} {c : Fin 64} :
    SpriteOver (fun r => (byte :: rows).getD r 0x00#8) (byte :: rows).length x0 y0 q c ↔
      BitsOver byte 8 x0 (spriteRow y0 0) q c ∨
        SpriteOver (fun r => rows.getD r 0x00#8) rows.length x0 (y0 + 1) q c := by
  have hrow : q = spriteRow y0 0 ↔ (y0 + 0) % 32 = q.val := Fin.ext_iff.trans eq_comm
  have hbelow (r : Nat) : y0 + 1 + r = y0 + (r + 1) := by omega
  rw [SpriteOver, List.length_cons, Nat.exists_lt_succ_left]
  refine or_congr ?_ ?_
  · simp only [BitsOver, hrow, List.getD_cons_zero, and_left_comm (a := _ < 8), exists_and_left]
  · simp only [SpriteOver, hbelow, List.getD_cons_succ]

/-- The rows of a sprite fall on rows that differ, while there are at most 32 of them (R184). -/
theorem drawRows_flips (x0 y0 : Nat) {rows : List Byte} (hlen : rows.length ≤ 32) (acc : Grid × Bool) :
    Flips (SpriteOver (fun r => rows.getD r 0x00#8) rows.length x0 y0) acc (drawRows x0 y0 0 rows acc) := by
  induction rows generalizing y0 acc with
  | nil => exact .refl (by simp [SpriteOver]) acc
  | cons byte rows ih =>
    rw [List.length_cons] at hlen
    rw [drawRows, drawRows_eq_add]
    refine ((drawRow_flips x0 (spriteRow y0 0) byte acc).trans (ih (y0 + 1) (by omega) _) ?_).congr
      fun _ _ => spriteOver_cons
    rintro q c ⟨rfl, -⟩ ⟨r, hr, -, -, hrow, -⟩
    have hsame : (y0 + 1 + r) % 32 = y0 % 32 := hrow
    omega

/-- What a draw of at most 32 rows does (R182, R184). -/
theorem drawSprite_flips (x0 y0 : Nat) {rows : List Byte} (hlen : rows.length ≤ 32) (g : Grid) :
    Flips (SpriteOver (fun r => rows.getD r 0x00#8) rows.length x0 y0) (g, false) (drawSprite x0 y0 rows g) :=
  drawRows_flips x0 y0 hlen (g, false)

/-! ### Drawing twice -/

theorem Flips.twice_restores {P : Fin 32 → Fin 64 → Prop} {a b d : Grid × Bool} {k : Bool} (hab : Flips P a b)
    (hbd : Flips P (b.1, k) d) : d.1 = a.1 := by
  refine Grid.ext_pixel fun q c => ?_
  by_cases hP : P q c
  · rw [hbd.covered q c hP, hab.covered q c hP, Bool.not_not]
  · rw [hbd.other q c hP, hab.other q c hP]

/-- The second draw meets the first one's set pixels: those that were unset before it (R184). -/
theorem Flips.collision_twice {P : Fin 32 → Fin 64 → Prop} {a b d : Grid × Bool} (hab : Flips P a b)
    (hbd : Flips P (b.1, false) d) : d.2 = true ↔ ∃ q c, P q c ∧ a.1.pixel q c = false := by
  rw [hbd.collision, or_iff_right Bool.false_ne_true]
  exact exists₂_congr fun q c => and_congr_right fun hP => by rw [hab.covered q c hP, Bool.not_eq_true']

/-- Settles O45: both draws flip the same pixels. -/
theorem drawingTwiceRestoresTheScreen : Obligations.DrawingTwiceRestoresTheScreen := by
  intro x0 y0 rows g hlen
  have hfirst := drawSprite_flips x0 y0 (by omega : rows.length ≤ 32) g
  have hsecond := drawSprite_flips x0 y0 (by omega : rows.length ≤ 32) (drawSprite x0 y0 rows g).1
  exact ⟨hfirst.twice_restores hsecond, hfirst.collision_twice hsecond⟩

/-! ### CLS and DRW -/

/-- The end of 00E0 and DXYN: a pixel that differs from the old framebuffer is reported (R115). -/
theorem State.doneDrawing_ok (t : State) (old : Grid) :
    ∃ fx, (t.doneDrawing old).outcome = some (.ok fx) ∧
      (∀ q c, t.fb.pixel q c ≠ old.pixel q c → fx.fbChanged = true) ∧ (fx.soundActive = true ↔ 0 < t.st.toNat) := by
  refine ⟨_, t.doneDrawing_outcome old, fun q c hpixel => ?_, t.soundActive_iff⟩
  have hne : t.fb ≠ old := fun h => hpixel (h ▸ rfl)
  simp [hne]

/-- Settles O43: the framebuffer is replaced by the clear one, and nothing else is written. -/
theorem clearScreen : Obligations.ClearScreen := by
  intro s
  obtain ⟨fx, hfx, hchanged, hsound⟩ := State.doneDrawing_ok { s with fb := Grid.clear } s.fb
  refine ⟨decodeWord_encode (i := .cls) rfl, _, fx, rfl, hfx, rfl, Grid.pixel_clear, ?_, hsound, fun _ => rfl, rfl,
    ⟨rfl, rfl⟩, ⟨rfl, rfl⟩, fun _ => rfl, ⟨rfl, rfl, rfl⟩, rfl, rfl, rfl, rfl, rfl⟩
  rintro ⟨q, c, hset⟩
  exact hchanged q c (by simp [hset])

/-- DRW with the bytes it reads in reach (R181). -/
theorem exec_drw_of_load {x y : RegIx} {n : BitVec 4} {s : State} {rows : List Byte} {d : Grid × Bool}
    (hrows : s.loadBytes s.i.toNat n.toNat = .ok rows)
    (hd : drawSprite (s.readV x).toNat (s.readV y).toNat rows s.fb = d) :
    exec (.drw x y n) s = .next (({ s with fb := d.1 }.writeV vf (flagByte d.2)).doneDrawing s.fb) := by
  simp only [exec, execDrw, hrows, hd]

/-- The rows a DRW in reach reads are the sprite of `DrwCovers`, and it has at most 15 of them (R181). -/
theorem exists_drw_flips (x y : RegIx) {n : BitVec 4} {s : State} (hreach : InReach s n.toNat) :
    ∃ d, exec (.drw x y n) s = .next (({ s with fb := d.1 }.writeV vf (flagByte d.2)).doneDrawing s.fb) ∧
      Flips (DrwCovers s x y n) (s.fb, false) d := by
  refine ⟨_, exec_drw_of_load (State.loadBytes_of_inReach hreach) rfl, ?_⟩
  have hlen : n.toNat ≤ 32 := by have := n.isLt; omega
  refine (drawSprite_flips _ _ (by simpa using hlen) s.fb).congr fun q c => ?_
  simp only [DrwCovers, SpriteOver, List.length_map, List.length_range]
  refine exists_congr fun r => and_congr_right fun hr => ?_
  simp [hr]

/-- Settles O44: the draw flips the covered pixels of the old framebuffer, and its flag is written to VF. -/
theorem drawXorsTheSpriteAndReportsCollision : Obligations.DrawXorsTheSpriteAndReportsCollision := by
  intro x y n s hreach
  obtain ⟨d, hexec, hflips⟩ := exists_drw_flips x y hreach
  obtain ⟨fx, hfx, hchanged, hsound⟩ := State.doneDrawing_ok ({ s with fb := d.1 }.writeV vf (flagByte d.2)) s.fb
  have hcollision : d.2 = true ↔ ∃ q c, DrwCovers s x y n q c ∧ s.fb.pixel q c = true :=
    hflips.collision.trans (or_iff_right Bool.false_ne_true)
  have hvf : (({ s with fb := d.1 }.writeV vf (flagByte d.2)).doneDrawing s.fb).readV vf = flagByte d.2 := by simp
  refine ⟨decodeWord_encode (i := .drw x y n) rfl, _, fx, hexec, hfx, rfl, hflips.covered, hflips.other, ?_, hsound,
    fun hset => ?_, fun hunset => ?_, fun r hr => ?_, rfl, ⟨rfl, rfl⟩, ⟨rfl, rfl⟩, fun _ => rfl, ⟨rfl, rfl, rfl⟩,
    rfl, rfl, rfl, rfl, rfl⟩
  · rintro ⟨q, c, hcover⟩
    exact hchanged q c (by simp [hflips.covered q c hcover])
  · exact hvf.trans (by rw [hcollision.mpr hset]; rfl)
  · have hclear : d.2 = false := by
      rw [← Bool.not_eq_true, hcollision]
      rintro ⟨q, c, hcover, hset⟩
      simp [hunset q c hcover] at hset
    exact hvf.trans (by rw [hclear]; rfl)
  · exact (State.readV_writeV _ vf r _).trans (if_neg hr)

end Sys2Proof.Machine

/-! PROOFS. Timers and keys (spec/45_timers_keys.md): the moves between a register and the timers, the skips on a key,
and the key wait. -/

namespace Sys2Proof.Machine

/-! ### Timers -/

/-- The frame of a completed write of the timers: what is left besides DT, ST and the outcome. -/
theorem State.writeTimers_done_frame (s : State) (d e : Byte) :
    SameRegs s { s with dt := d, st := e }.done ∧ SameIndex s { s with dt := d, st := e }.done ∧
      SameStack s { s with dt := d, st := e }.done ∧ SameMemory s { s with dt := d, st := e }.done ∧
      SameScreen s { s with dt := d, st := e }.done ∧ SameStatus s { s with dt := d, st := e }.done ∧
      SameOutside s { s with dt := d, st := e }.done :=
  ⟨fun _ => rfl, rfl, ⟨rfl, rfl⟩, fun _ => rfl, fun _ _ => rfl, ⟨rfl, rfl, rfl⟩, rfl, rfl, rfl, rfl, rfl⟩

/-- Settles O47: FX07 is one register write, FX15 and FX18 write one timer each, and the sound level is read off the
new ST (R29). -/
theorem timerMoves : Obligations.TimerMoves := fun x s =>
  ⟨decodeWord_encode (i := .ldVxDt x) rfl, decodeWord_encode (i := .ldDt x) rfl, decodeWord_encode (i := .ldSt x) rfl,
    ⟨_, rfl, s.writeV_done x (P := fun b => b = s.dt) rfl⟩,
    ⟨_, rfl, State.done_completed _, rfl, rfl, rfl, s.writeTimers_done_frame (s.readV x) s.st⟩,
    ⟨_, rfl, State.done_completed _, rfl, rfl, rfl, State.soundActive_iff _,
      s.writeTimers_done_frame s.dt (s.readV x)⟩⟩

/-! ### Skips on a key -/

/-- SKP skips on the key of the low 4 bits (R203, R206, D20). -/
theorem exec_skp (x : RegIx) (s : State) :
    exec (.skp x) s =
      .next (s.skipIf (decide (s.stimulus.keys.getLsbD ((s.readV x).toNat % 16) = true))).done := by
  simp only [exec, execSkp, keyHeld, lowNibble_eq, State.keys, Bool.decide_eq_true]

/-- SKNP skips unless the key of the low 4 bits is held (R204, R206, D20). -/
theorem exec_sknp (x : RegIx) (s : State) :
    exec (.sknp x) s =
      .next (s.skipIf (decide ¬s.stimulus.keys.getLsbD ((s.readV x).toNat % 16) = true)).done := by
  simp only [exec, execSknp, keyHeld, lowNibble_eq, State.keys, decide_not, Bool.decide_eq_true]

/-- Settles O48: SKP skips when the key is held at the read, SKNP unless it is. -/
theorem skipOnKey : Obligations.SkipOnKey := fun x s =>
  ⟨decodeWord_encode (i := .skp x) rfl, decodeWord_encode (i := .sknp x) rfl,
    ⟨_, exec_skp x s, s.skipIf_done _⟩, ⟨_, exec_sknp x s, s.skipIf_not_done _⟩⟩

/-! ### The key wait -/

/-- A held key with none held below it is the one FX0A finds (R205, D19). -/
theorem lowestKey_eq {m : BitVec 16} {k : Nat} (hk : k < 16) (hheld : m.getLsbD k = true)
    (hlower : ∀ j < k, m.getLsbD j = false) : lowestKey m = k := by
  have hfind : (List.range 16).find? (fun k => keyHeld k m) = some k :=
    List.find?_range_eq_some.mpr ⟨hheld, List.mem_range.mpr hk, fun j hj => by simp [keyHeld, hlower j hj]⟩
  rw [lowestKey, hfind, Option.getD_some]

/-- FX0A with no key held waits. -/
theorem exec_ldVxK_of_no_key (x : RegIx) {s : State} (h : s.stimulus.keys = 0x0000#16) :
    exec (.ldVxK x) s = .next s.waitForKey := by
  simp only [exec, execLdVxK, State.keys, h, if_true]

/-- FX0A with a key held is one register write. -/
theorem exec_ldVxK_of_key (x : RegIx) {s : State} (h : s.stimulus.keys ≠ 0x0000#16) :
    exec (.ldVxK x) s = .next (s.writeV x (BitVec.ofNat 8 (lowestKey s.stimulus.keys))).done := by
  simp only [exec, execLdVxK, State.keys, h, if_false]

/-- Waiting moves PC only: it differs from a jump back to the instruction in the outcome alone (R117). -/
theorem State.waitForKey_pcOnly (s : State) : PcOnly s s.waitForKey := s.jump_done_pcOnly (s.pc - 2#16)

/-- Settles O49: with no key held FX0A waits, and a held key makes KEYS nonzero, so the lowest is loaded. -/
theorem keyWaitCompletesOrWaits : Obligations.KeyWaitCompletesOrWaits := by
  refine fun x s => ⟨decodeWord_encode (i := .ldVxK x) rfl, fun hnone => ?_, fun k hk hheld hlower => ?_⟩
  · exact ⟨_, exec_ldVxK_of_no_key x hnone, s.waitForKey_outcome, s.waitForKey_pc, s.waitForKey_pcOnly⟩
  · have hsome : s.stimulus.keys ≠ 0x0000#16 := fun hnone => by simp [hnone] at hheld
    have hvalue : (BitVec.ofNat 8 (lowestKey s.stimulus.keys)).toNat = k := by
      rw [lowestKey_eq hk hheld hlower, BitVec.toNat_ofNat]
      omega
    exact ⟨_, exec_ldVxK_of_key x hsome, s.writeV_done x (P := fun b => b.toNat = k) hvalue⟩

end Sys2Proof.Machine

/-! PROOFS. Errors and the sequencer (spec/60_exceptions.md): which errors halt, where OutOfBounds is raised, how the
timers change, and what `advance` pays for, runs and reports. -/

namespace Sys2Proof.Machine

/-! ### Errors that halt -/

/-- An error that is fatal by its class or by the policy halts and is recorded (R248, R249). -/
theorem AfterError.of_fatal {e : ExecError} {s t : State} (h : AfterError e s t)
    (hfatal : e.errorClass = .fatal ∨ s.cfg.errPolicy = .failFast) :
    t.halted = true ∧ t.err = some e ∧ t.errLog = s.errLog := by
  obtain ⟨-, hstatus, -⟩ := h
  exact (if_pos hfatal).mp hstatus

/-- A running CPU is halted by an error exactly when its class or the policy makes it fatal (R248, R251). -/
theorem AfterError.halted_iff {e : ExecError} {s t : State} (h : AfterError e s t) (hrun : s.halted = false) :
    t.halted = true ↔ e.errorClass = .fatal ∨ s.cfg.errPolicy = .failFast := by
  refine ⟨fun hhalted => ?_, fun hfatal => (h.of_fatal hfatal).1⟩
  by_contra hsuppressed
  obtain ⟨-, hstatus, -⟩ := h
  obtain ⟨hsame, -⟩ := (if_neg hsuppressed).mp hstatus
  cases hhalted.symm.trans (hsame.trans hrun)

theorem cpuStep_of_illegal {s : State} {w : Word} {r : DecodeReject} (hrun : s.halted = false) (hw : s.fetch = .ok w)
    (hr : decodeWord w = .error r) :
    cpuStep s = .next (s.advancePc.raise (.illegalInstruction w)).nextEvent := by
  simp [cpuStep, hrun, fetchAndExecute, hw, decodeAndExecute, hr, mapNext]

/-- Settles O8: the decode phase raises the word from the advanced PC, and its error is fatal by class. -/
theorem illegalWordIsAlwaysFatal : Obligations.IllegalWordIsAlwaysFatal := by
  intro s w r hrun hw hr
  have herror := (s.ticks s.stimulus.ticks).advancePc.raise_afterError (.illegalInstruction w)
  obtain ⟨hhalted, herr, hlog⟩ := herror.of_fatal (.inl rfl)
  obtain ⟨hout, -, hregs, hindex, hstack, -, hmem, hscreen, -⟩ := herror
  exact ⟨_, cpuStep_of_illegal (s := s.ticks s.stimulus.ticks) hrun hw hr, hout, hhalted, herr, hlog,
    State.raise_pc _ _, hregs, hindex, hstack, hmem, hscreen⟩

/-- A step event raises an error, or leaves HALTED, ERR and the log alone (R35). -/
theorem cpuStep_raises_or_sameStatus {s t : State} (h : cpuStep s = .next t) :
    (∃ e, t.outcome = some (.err e)) ∨ SameStatus s t := by
  obtain ⟨-, h'⟩ | ⟨-, e, -, h'⟩ | ⟨-, w, r, -, -, h'⟩ | ⟨-, w, i, -, -, h'⟩ := cpuStep_cases s <;> rw [h'] at h
  · cases h
    exact .inr ⟨rfl, rfl, rfl⟩
  · cases h
    exact .inl ⟨e, s.raise_outcome e⟩
  · cases h
    exact .inl ⟨_, s.advancePc.raise_outcome _⟩
  · obtain ⟨u, hu, rfl⟩ := mapNext_eq_next.mp h
    obtain ⟨e, rfl, -⟩ | hstatus := (effect_of_exec hu).raises_or_sameStatus
    · exact .inl ⟨e, s.advancePc.raise_outcome e⟩
    · exact .inr hstatus

/-- Settles O12: HALTED changes only by an error, and an error that halts is fatal and recorded. -/
theorem onlyAFatalErrorHalts : Obligations.OnlyAFatalErrorHalts := by
  intro s t hrun h hhalted
  rw [step_eq] at h
  obtain ⟨e, he⟩ | ⟨hsame, -⟩ := cpuStep_raises_or_sameStatus h
  · obtain ⟨herror, -⟩ := cpuStep_err h he
    have hfatal := (herror.halted_iff hrun).mp hhalted
    obtain ⟨-, herr, -⟩ := herror.of_fatal hfatal
    exact ⟨e, he, herr, hfatal⟩
  · cases hhalted.symm.trans (hsame.trans hrun)

/-! ### OutOfBounds -/

/-- Which errors the step event of a running CPU raises: that of the fetch, an illegal word, or one the decoded
instruction raises (R111, R113). -/
theorem cpuStep_outcome_err_iff {s t : State} {e : ExecError} (hrun : s.halted = false) (h : cpuStep s = .next t) :
    t.outcome = some (.err e) ↔ s.fetch = .error e ∨
      (∃ w r, s.fetch = .ok w ∧ decodeWord w = .error r ∧ e = .illegalInstruction w) ∨
      ∃ w i, s.fetch = .ok w ∧ decodeWord w = .ok i ∧ Raises s.advancePc i e := by
  obtain ⟨hhalted, -⟩ | ⟨-, e', hw, h'⟩ | ⟨-, w, r, hw, hr, h'⟩ | ⟨-, w, i, hw, hi, h'⟩ := cpuStep_cases s
  · cases hrun.symm.trans hhalted
  · cases h.symm.trans h'
    simp [hw]
  · cases h.symm.trans h'
    simp [hw, hr, eq_comm]
  · obtain ⟨u, hu, rfl⟩ := mapNext_eq_next.mp (h' ▸ h)
    have hraises : u.outcome = some (.err e) ↔ Raises s.advancePc i e := by
      refine ⟨raises_of_exec hu, fun hr => ?_⟩
      cases hu.symm.trans hr.exec_eq
      exact s.advancePc.raise_outcome e
    simp [hw, hi, hraises]

/-- Of the `n` addresses from `a` up there is a first one outside the memory when the last one is outside. -/
theorem exists_first_outside {a n : Nat} :
    (∃ k < n, 4096 ≤ a + k ∧ ∀ j < k, a + j < 4096) ↔ 1 ≤ n ∧ 4096 ≤ a + n - 1 := by
  constructor
  · rintro ⟨k, hk, hout, -⟩
    omega
  · rintro ⟨hn, hlast⟩
    exact ⟨4096 - a, by omega, by omega, fun j hj => by omega⟩

/-- When an access to the `n` addresses from `a` up is out of bounds, if it fails at the first one outside (R118). -/
theorem outOfBounds_iff {α : Type} {access : Except ExecError α} {mode : AddrMode} {tag : SubOp} {a n : Nat}
    (haccess : ∀ {e}, access = .error e ↔ mode = .strictBounds ∧
      ∃ k < n, 4096 ≤ a + k ∧ (∀ j < k, a + j < 4096) ∧ e = .outOfBounds tag (a + k)) :
    (∃ tag' b, access = .error (.outOfBounds tag' b)) ↔ mode = .strictBounds ∧ 1 ≤ n ∧ 4096 ≤ a + n - 1 := by
  rw [← exists_first_outside]
  constructor
  · rintro ⟨tag', b, h⟩
    obtain ⟨hstrict, k, hk, hout, hbefore, -⟩ := haccess.mp h
    exact ⟨hstrict, k, hk, hout, hbefore⟩
  · rintro ⟨hstrict, k, hk, hout, hbefore⟩
    exact ⟨_, _, haccess.mpr ⟨hstrict, k, hk, hout, hbefore, rfl⟩⟩

/-- When a read of `n` bytes is out of bounds (R65). -/
theorem State.loadBytes_outOfBounds_iff {s : State} {a n : Nat} :
    (∃ tag b, s.loadBytes a n = .error (.outOfBounds tag b)) ↔
      s.cfg.addrMode = .strictBounds ∧ 1 ≤ n ∧ 4096 ≤ a + n - 1 :=
  outOfBounds_iff State.loadBytes_error_iff

/-- When a store is out of bounds (R66). -/
theorem State.storeBytes_outOfBounds_iff {s : State} {a : Nat} {xs : List Byte} :
    (∃ tag b, s.storeBytes a xs = .error (.outOfBounds tag b)) ↔
      s.cfg.addrMode = .strictBounds ∧ 1 ≤ xs.length ∧ 4096 ≤ a + xs.length - 1 :=
  outOfBounds_iff State.storeBytes_error_iff

/-- When a fetch is out of bounds: one of its two addresses is outside (R67, D12). -/
theorem State.fetch_outOfBounds_iff {s : State} :
    (∃ tag a, s.fetch = .error (.outOfBounds tag a)) ↔ s.cfg.addrMode = .strictBounds ∧ 0xFFF ≤ s.pc.toNat := by
  constructor
  · rintro ⟨tag, a, h⟩
    obtain ⟨hstrict, ⟨hpc, -⟩ | ⟨hpc, -⟩⟩ := State.fetch_error_iff.mp h
    · exact ⟨hstrict, by omega⟩
    · exact ⟨hstrict, by omega⟩
  · rintro ⟨hstrict, hpc⟩
    obtain hlast | hbeyond := hpc.eq_or_lt
    · exact ⟨_, _, State.fetch_error_iff.mpr ⟨hstrict, .inr ⟨hlast.symm, rfl⟩⟩⟩
    · exact ⟨_, _, State.fetch_error_iff.mpr ⟨hstrict, .inl ⟨hbeyond, rfl⟩⟩⟩

/-- The instruction uses a byte at 4096 or above: the last one of its access from I lies there (R242). -/
def AccessesOutside (s : State) (i : Instr) : Prop :=
  (∃ x y n, i = .drw x y n ∧ 1 ≤ n.toNat ∧ 4096 ≤ s.i.toNat + n.toNat - 1) ∨
  (∃ x, i = .ldB x ∧ 4096 ≤ s.i.toNat + 2) ∨
  (∃ x, (i = .storeRegs x ∨ i = .loadRegs x) ∧ 4096 ≤ s.i.toNat + x.toNat)

/-- An instruction raises OutOfBounds exactly for its access to a strict memory; the stack and SYS raise other errors
(R242). -/
theorem raises_outOfBounds_iff {s : State} {i : Instr} :
    (∃ tag a, Raises s i (.outOfBounds tag a)) ↔ s.cfg.addrMode = .strictBounds ∧ AccessesOutside s i := by
  constructor
  · rintro ⟨tag, a, h⟩
    cases h with
    | ret h => obtain ⟨_, hpop⟩ | ⟨-, hpop⟩ := s.pop_cases <;> cases h.symm.trans hpop
    | call h => obtain ⟨_, hpush⟩ | ⟨-, hpush⟩ := s.push_cases s.pc <;> cases h.symm.trans hpush
    | drw h =>
      obtain ⟨hstrict, hn, hout⟩ := State.loadBytes_outOfBounds_iff.mp ⟨tag, a, h⟩
      exact ⟨hstrict, .inl ⟨_, _, _, rfl, hn, hout⟩⟩
    | ldB h =>
      obtain ⟨hstrict, -, hout⟩ := State.storeBytes_outOfBounds_iff.mp ⟨tag, a, h⟩
      exact ⟨hstrict, .inr (.inl ⟨_, rfl, hout⟩)⟩
    | storeRegs h =>
      obtain ⟨hstrict, -, hout⟩ := State.storeBytes_outOfBounds_iff.mp ⟨tag, a, h⟩
      exact ⟨hstrict, .inr (.inr ⟨_, .inl rfl, by simpa using hout⟩)⟩
    | loadRegs h =>
      obtain ⟨hstrict, -, hout⟩ := State.loadBytes_outOfBounds_iff.mp ⟨tag, a, h⟩
      exact ⟨hstrict, .inr (.inr ⟨_, .inr rfl, hout⟩)⟩
  · rintro ⟨hstrict, ⟨x, y, n, rfl, hn, hout⟩ | ⟨x, rfl, hout⟩ | ⟨x, rfl | rfl, hout⟩⟩
    · obtain ⟨tag, a, h⟩ := State.loadBytes_outOfBounds_iff.mpr ⟨hstrict, hn, hout⟩
      exact ⟨tag, a, .drw h⟩
    · obtain ⟨tag, a, h⟩ := State.storeBytes_outOfBounds_iff (xs := bcdDigits (s.readV x)).mpr
        ⟨hstrict, by simp, hout⟩
      exact ⟨tag, a, .ldB h⟩
    · obtain ⟨tag, a, h⟩ := State.storeBytes_outOfBounds_iff (xs := s.regRange x).mpr
        ⟨hstrict, by simp, by simpa using hout⟩
      exact ⟨tag, a, .storeRegs h⟩
    · obtain ⟨tag, a, h⟩ := State.loadBytes_outOfBounds_iff (n := x.toNat + 1).mpr ⟨hstrict, by omega, hout⟩
      exact ⟨tag, a, .loadRegs h⟩

/-- When the step event of a running CPU is out of bounds: at its fetch, or at the access of its instruction (R242). -/
theorem cpuStep_outOfBounds_iff {s t : State} (hrun : s.halted = false) (h : cpuStep s = .next t) :
    (∃ tag a, t.outcome = some (.err (.outOfBounds tag a))) ↔ s.cfg.addrMode = .strictBounds ∧
      (0xFFF ≤ s.pc.toNat ∨ ∃ w i, s.fetch = .ok w ∧ decodeWord w = .ok i ∧ AccessesOutside s i) := by
  simp only [cpuStep_outcome_err_iff hrun h]
  constructor
  · rintro ⟨tag, a, hfetch | ⟨w, r, -, -, hillegal⟩ | ⟨w, i, hw, hi, hraises⟩⟩
    · obtain ⟨hstrict, hpc⟩ := State.fetch_outOfBounds_iff.mp ⟨tag, a, hfetch⟩
      exact ⟨hstrict, .inl hpc⟩
    · cases hillegal
    · obtain ⟨hstrict, hout⟩ := raises_outOfBounds_iff.mp ⟨tag, a, hraises⟩
      exact ⟨hstrict, .inr ⟨w, i, hw, hi, hout⟩⟩
  · rintro ⟨hstrict, hpc | ⟨w, i, hw, hi, hout⟩⟩
    · obtain ⟨tag, a, hfetch⟩ := State.fetch_outOfBounds_iff.mpr ⟨hstrict, hpc⟩
      exact ⟨tag, a, .inl hfetch⟩
    · obtain ⟨tag, a, hraises⟩ := raises_outOfBounds_iff (s := s.advancePc).mpr ⟨hstrict, hout⟩
      exact ⟨tag, a, .inr (.inr ⟨w, i, hw, hi, hraises⟩)⟩

/-- Settles O11: the step event raises it there, the ticks do not change where, and its class leaves halting to the
policy. -/
theorem outOfBoundsExactlyThere : Obligations.OutOfBoundsExactlyThere := by
  intro s t hrun h
  rw [step_eq] at h
  refine ⟨cpuStep_outOfBounds_iff (s := s.ticks s.stimulus.ticks) hrun h, ?_,
    fun hwrap => State.fetch_ok_iff.mpr ⟨.inl hwrap, rfl⟩⟩
  rintro ⟨tag, a, he⟩
  obtain ⟨herror, -⟩ := cpuStep_err h he
  have hrecoverable : (ExecError.outOfBounds tag a).errorClass ≠ .fatal := nofun
  exact (herror.halted_iff hrun).trans (or_iff_right hrecoverable)

/-! ### The timers in a step -/

/-- An instruction other than FX15 and FX18 leaves both timers alone (R258). -/
theorem exec_sameTimers {i : Instr} {s t : State} (h : exec i s = .next t) (hdt : ∀ x, i ≠ .ldDt x)
    (hst : ∀ x, i ≠ .ldSt x) : SameTimers s t := by
  cases effect_of_exec h with
  | delayTimer x => exact absurd rfl (hdt x)
  | soundTimer x => exact absurd rfl (hst x)
  | raise | jump | skip | register | result | index | clear | draw | call | ret | keyWait | storeDigits | storeRegs
  | loadRegs => simp [SameTimers, State.writeResult]

/-- FX15 sets DT, FX18 sets ST, and no other instruction changes a timer (R258). -/
theorem exec_timers {i : Instr} {s t : State} (h : exec i s = .next t) :
    ((∃ x, i = .ldDt x ∧ t.dt = s.readV x) ∨ ((∀ x, i ≠ .ldDt x) ∧ t.dt = s.dt)) ∧
    ((∃ x, i = .ldSt x ∧ t.st = s.readV x) ∨ ((∀ x, i ≠ .ldSt x) ∧ t.st = s.st)) := by
  by_cases hdt : ∃ x, i = .ldDt x
  · obtain ⟨x, rfl⟩ := hdt
    cases h
    exact ⟨.inl ⟨x, rfl, rfl⟩, .inr ⟨nofun, rfl⟩⟩
  · by_cases hst : ∃ x, i = .ldSt x
    · obtain ⟨x, rfl⟩ := hst
      cases h
      exact ⟨.inr ⟨nofun, rfl⟩, .inl ⟨x, rfl, rfl⟩⟩
    · rw [not_exists] at hdt hst
      obtain ⟨hsameDt, hsameSt⟩ := exec_sameTimers h hdt hst
      exact ⟨.inr ⟨hdt, hsameDt⟩, .inr ⟨hst, hsameSt⟩⟩

/-- The next step event runs the instruction `i`. -/
def Runs (s : State) (i : Instr) : Prop := s.halted = false ∧ ∃ w, s.fetch = .ok w ∧ decodeWord w = .ok i

/-- At most one instruction runs in a step event. -/
theorem Runs.unique {s : State} {i j : Instr} (hi : Runs s i) (hj : Runs s j) : i = j := by
  obtain ⟨-, w, hw, hi⟩ := hi
  obtain ⟨-, w', hw', hj⟩ := hj
  cases hw.symm.trans hw'
  cases hi.symm.trans hj
  rfl

/-- A step event runs an instruction, or runs none and leaves both timers alone. -/
theorem cpuStep_runs_or_sameTimers {s t : State} (h : cpuStep s = .next t) :
    (∃ i u, Runs s i ∧ exec i s.advancePc = .next u ∧ t = u.nextEvent) ∨ ((∀ i, ¬ Runs s i) ∧ SameTimers s t) := by
  obtain ⟨hhalted, h'⟩ | ⟨-, e, he, h'⟩ | ⟨-, w, r, hw, hr, h'⟩ | ⟨hrun, w, i, hw, hi, h'⟩ := cpuStep_cases s <;>
    rw [h'] at h
  · cases h
    exact .inr ⟨fun i hruns => by simp [hhalted, Runs] at hruns, rfl, rfl⟩
  · cases h
    exact .inr ⟨fun i hruns => by simp [he, Runs] at hruns, s.raise_dt e, s.raise_st e⟩
  · cases h
    exact .inr ⟨fun i hruns => by simp [hw, hr, Runs] at hruns, s.advancePc.raise_dt _, s.advancePc.raise_st _⟩
  · obtain ⟨u, hu, rfl⟩ := mapNext_eq_next.mp h
    exact .inl ⟨i, u, ⟨hrun, w, hw, hi⟩, hu, rfl⟩

/-- The two halves of R258 for a step event, from what its instruction does: `write` is the instruction that writes the
timer, `Written` and `Kept` say what becomes of it. -/
theorem runs_or_of_instr {s : State} {i : Instr} (hi : Runs s i) {write : RegIx → Instr} {Written : RegIx → Prop}
    {Kept : Prop} (h : (∃ x, i = write x ∧ Written x) ∨ ((∀ x, i ≠ write x) ∧ Kept)) :
    (∃ w x, s.halted = false ∧ s.fetch = .ok w ∧ decodeWord w = .ok (write x) ∧ Written x) ∨
      ((∀ w x, s.halted = false → s.fetch = .ok w → decodeWord w ≠ .ok (write x)) ∧ Kept) := by
  obtain ⟨x, rfl, hwritten⟩ | ⟨hother, hkept⟩ := h
  · obtain ⟨hrun, w, hw, hx⟩ := hi
    exact .inl ⟨w, x, hrun, hw, hx, hwritten⟩
  · exact .inr ⟨fun w x hrun hw hx => hother x (hi.unique ⟨hrun, w, hw, hx⟩), hkept⟩

/-- Settles O16: by what each instruction does to the timers, and what a step event runs. -/
theorem timersChangeOnlyByTheirInstructions : Obligations.TimersChangeOnlyByTheirInstructions := by
  refine ⟨fun x s => ⟨⟨_, rfl, rfl, rfl⟩, ⟨_, rfl, rfl, rfl⟩⟩, fun i s t => exec_timers, fun s t h => ?_⟩
  obtain ⟨i, u, hi, hu, rfl⟩ | ⟨hnone, hdt, hst⟩ := cpuStep_runs_or_sameTimers h
  · obtain ⟨hdt, hst⟩ := exec_timers hu
    exact ⟨runs_or_of_instr hi hdt, runs_or_of_instr hi hst⟩
  · exact ⟨.inr ⟨fun w x hrun hw hx => hnone _ ⟨hrun, w, hw, hx⟩, hdt⟩,
      .inr ⟨fun w x hrun hw hx => hnone _ ⟨hrun, w, hw, hx⟩, hst⟩⟩

/-! ### The tick event -/

theorem State.tick_eq_ticks_one (s : State) : s.tick = s.ticks 1 := (ticks_eq_iterate 1 s).symm

theorem State.toNat_tick_dt (s : State) : s.tick.dt.toNat = s.dt.toNat - 1 := by
  rw [State.tick_eq_ticks_one, State.ticks_dt, toNat_countDown]

theorem State.toNat_tick_st (s : State) : s.tick.st.toNat = s.st.toNat - 1 := by
  rw [State.tick_eq_ticks_one, State.ticks_st, toNat_countDown]

/-- Settles O50: a tick is one step of the count down of each timer, and writes the timers only. -/
theorem tickCountsDownToZero : Obligations.TickCountsDownToZero := fun s =>
  ⟨s.toNat_tick_dt, s.toNat_tick_st, rfl, rfl, fun _ => rfl, rfl, ⟨rfl, rfl⟩, fun _ => rfl, fun _ _ => rfl,
    ⟨rfl, rfl, rfl⟩, rfl, rfl, rfl, rfl, rfl⟩

/-- Settles O58, by induction on the order: a tick counts down, and a step of a halted CPU adds its outcome. -/
theorem timersRunWhileHalted : Obligations.TimersRunWhileHalted := by
  intro order
  induction order with
  | nil =>
    exact fun s _ => ⟨s, [], rfl, rfl, rfl, rfl, rfl, fun _ => rfl, rfl, ⟨rfl, rfl⟩, fun _ => rfl, fun _ _ => rfl,
      ⟨rfl, rfl, rfl⟩⟩
  | cons ev order ih =>
    intro s hhalted
    cases ev with
    | tick =>
      obtain ⟨t, os, hrun, hdt, hst, hos, hframe⟩ := ih s.tick hhalted
      rw [State.toNat_tick_dt] at hdt
      rw [State.toNat_tick_st] at hst
      refine ⟨t, os, hrun, ?_, ?_, hos, hframe⟩
      · rw [hdt, List.count_cons_self, Nat.sub_sub, Nat.add_comm]
      · rw [hst, List.count_cons_self, Nat.sub_sub, Nat.add_comm]
    | step =>
      obtain ⟨t, os, hrun, hdt, hst, rfl, hframe⟩ := ih s.stayHalted.nextEvent hhalted
      refine ⟨t, .halted s.err :: List.replicate (order.count .step) (.halted s.err), ?_, hdt, hst, ?_, hframe⟩
      · simp only [runEvents, cpuStep_of_halted hhalted, hrun]
        rfl
      · rw [List.count_cons_self, List.replicate_succ]

/-! ### What an advance runs and reports -/

theorem Effect.outcome_isSome {i : Instr} {s t : State} (h : Effect i s t) : t.outcome.isSome = true := by
  cases h with
  | raise | jump | skip | register | result | index | clear | draw | call | ret | delayTimer | soundTimer | keyWait
  | storeDigits | storeRegs | loadRegs => simp

/-- Every step event has an outcome (R114). -/
theorem cpuStep_outcome {s t : State} (h : cpuStep s = .next t) : ∃ o, t.outcome = some o := by
  rw [← Option.isSome_iff_exists]
  obtain ⟨-, h'⟩ | ⟨-, e, -, h'⟩ | ⟨-, w, r, -, -, h'⟩ | ⟨-, w, i, -, -, h'⟩ := cpuStep_cases s <;> rw [h'] at h
  · cases h
    rfl
  · cases h
    simp
  · cases h
    simp
  · obtain ⟨u, hu, rfl⟩ := mapNext_eq_next.mp h
    exact (effect_of_exec hu).outcome_isSome

/-- A run of events answers one outcome for each step event (R261). -/
theorem length_outcomes {order : List SeqEvent} {s t : State} {os : List StepOutcome}
    (h : runEvents order s = .next (t, os)) : os.length = order.count .step := by
  induction order generalizing s t os with
  | nil =>
    cases h
    rfl
  | cons ev order ih =>
    cases ev with
    | tick => exact ih h
    | step =>
      obtain ⟨u, hu, -⟩ := cpuStep_answers s
      obtain ⟨t', os', hrun, -⟩ := runEvents_answers order u.nextEvent
      obtain ⟨o, ho⟩ := cpuStep_outcome hu
      simp only [runEvents, hu, hrun, ho] at h
      cases h
      rw [List.count_cons_self, ← ih hrun]
      rfl

theorem StepOutcome.error?_eq_some {o : StepOutcome} {e : ExecError} : o.error? = some e ↔ o = .err e := by
  cases o <;> simp [StepOutcome.error?]

theorem StepOutcome.error?_eq_none {o : StepOutcome} : o.error? = none ↔ ∀ e, o ≠ .err e := by
  simp only [Option.eq_none_iff_forall_ne_some, ne_eq, StepOutcome.error?_eq_some]

theorem StepOutcome.fbChanged_eq_true {o : StepOutcome} :
    o.fbChanged = true ↔ ∃ fx, o = .ok fx ∧ fx.fbChanged = true := by
  cases o <;> simp [StepOutcome.fbChanged]

/-- The first error of some outcomes: none raised one, or there is one with none before it. -/
theorem first_error_cases (os : List StepOutcome) :
    ((∀ e, StepOutcome.err e ∉ os) ∧ (os.filterMap StepOutcome.error?).head? = none) ∨
    ∃ e before after, os = before ++ StepOutcome.err e :: after ∧ (∀ e', StepOutcome.err e' ∉ before) ∧
      (os.filterMap StepOutcome.error?).head? = some e := by
  rw [List.head?_filterMap]
  cases h : os.findSome? StepOutcome.error? with
  | none =>
    rw [List.findSome?_eq_none_iff] at h
    exact .inl ⟨fun e he => StepOutcome.error?_eq_none.mp (h _ he) e rfl, rfl⟩
  | some e =>
    obtain ⟨before, o, after, rfl, ho, hbefore⟩ := List.findSome?_eq_some_iff.mp h
    obtain rfl := StepOutcome.error?_eq_some.mp ho
    exact .inr ⟨e, before, after, rfl, fun e' he' => StepOutcome.error?_eq_none.mp (hbefore _ he') e' rfl, rfl⟩

/-- The record of an advance reports the outcomes it was made from (R263, D38). -/
theorem frameResult_reports (s : State) (os : List StepOutcome) : (frameResult s os).Reports s.cfg.errPolicy os := by
  refine ⟨?_, ?_, fun hpolicy => ?_, fun hpolicy => ⟨os.filterMap StepOutcome.error?, ?_, ?_⟩⟩
  · change os.countP StepOutcome.executed = _
    induction os with
    | nil => rfl
    | cons o os ih =>
      rw [List.countP_cons, List.map_cons, List.sum_cons, ← ih, Nat.add_comm]
      cases o <;> rfl
  · simp only [frameResult, List.any_eq_true]
    constructor
    · rintro ⟨o, ho, hchanged⟩
      obtain ⟨fx, rfl, hfx⟩ := StepOutcome.fbChanged_eq_true.mp hchanged
      exact ⟨fx, ho, hfx⟩
    · rintro ⟨fx, ho, hfx⟩
      exact ⟨_, ho, hfx⟩
  · simpa only [frameResult, hpolicy, FrameErrors.first.injEq] using first_error_cases os
  · simp only [frameResult, hpolicy]
  · rw [List.map_filterMap, ← List.filterMap_eq_filter]
    congr 1
    funext o
    cases o <;> rfl

/-- Settles O57: every order is run, with one outcome for each step, and the result is the record of them. -/
theorem advanceRunsEveryInterleaving : Obligations.AdvanceRunsEveryInterleaving := by
  intro dt order s hok hdt hticks hsteps
  obtain ⟨t, os, hrun, hcfg, -⟩ := runEvents_answers order
    { s with accT := carryOver (s.accT + dt) s.cfg.timerHz, accC := carryOver (s.accC + dt) s.cfg.cpuHz }
  have hlen := length_outcomes hrun
  exact ⟨t, frameResult t os, os, advance_eq_next.mpr ⟨hok, hdt, hticks, hsteps, os, hrun, rfl⟩, hrun, hlen, rfl,
    hlen ▸ List.countP_le_length, (show t.cfg = s.cfg from hcfg) ▸ frameResult_reports t os⟩

/-! ### What an advance carries over -/

theorem Cfg.hz_pos {c : Cfg} (h : c.ok = true) : 0 < c.timerHz ∧ 0 < c.cpuHz := by
  simp only [Cfg.ok, Bool.and_eq_true, decide_eq_true_eq] at h
  omega

/-- An elapsed time is the whole periods paid and the rest, which is not negative and less than a period (R260, D37). -/
theorem carryOver_spec {acc : Rat} {hz : Nat} (hacc : 0 ≤ acc) (hhz : 0 < hz) :
    acc = wholePeriods acc hz / hz + carryOver acc hz ∧ 0 ≤ carryOver acc hz ∧ carryOver acc hz < 1 / hz := by
  have hpos : (0 : Rat) < hz := by exact_mod_cast hhz
  have hfloor : wholePeriods acc hz = ⌊acc * hz⌋₊ := rfl
  have hpaid : (wholePeriods acc hz : Rat) / hz ≤ acc := by
    rw [div_le_iff₀ hpos, hfloor]
    exact Nat.floor_le (by positivity)
  have hnext : acc < wholePeriods acc hz / hz + 1 / hz := by
    rw [← add_div, lt_div_iff₀ hpos, hfloor]
    exact Nat.lt_floor_add_one _
  exact ⟨(add_sub_cancel _ _).symm, sub_nonneg.mpr hpaid, sub_left_lt_of_lt_add hnext⟩

/-- Settles O56: the events run are the whole periods of each clock, and no event touches the rest. -/
theorem advanceCarriesLessThanAPeriod : Obligations.AdvanceCarriesLessThanAPeriod := by
  intro dt order s t r hT hC h
  obtain ⟨hok, hdt, hticks, hsteps, os, hrun, -⟩ := advance_eq_next.mp h
  obtain ⟨t', os', hrun', -, haccT, haccC⟩ := runEvents_answers order _
  cases hrun.symm.trans hrun'
  obtain ⟨htimer, hcpu⟩ := Cfg.hz_pos hok
  obtain ⟨hpaidT, hnonnegT, hltT⟩ := carryOver_spec (add_nonneg hT hdt) htimer
  obtain ⟨hpaidC, hnonnegC, hltC⟩ := carryOver_spec (add_nonneg hC hdt) hcpu
  rw [hticks, hsteps, haccT, haccC]
  exact ⟨hpaidT, hnonnegT, hltT, hpaidC, hnonnegC, hltC⟩

end Sys2Proof.Machine
